-- ==== Sys2Proof/Word.lean ====
section
/-! DEFINITION. The widths of the block's values (spec/00_scope.md R11, R12): every value is an unsigned bit vector of a
stated width, bit 0 its least significant bit. -/

namespace Sys2Proof

/-- A byte: an element of `BUF`, a byte of the synthesizer word, a sample. -/
abbrev Byte := BitVec 8

/-- The 16-bit CRC accumulator. -/
abbrev Word16 := BitVec 16

/-- The 24-bit synthesizer word, and three calibration bytes side by side. -/
abbrev Word24 := BitVec 24

/-- A frequency in hertz, and the response word. -/
abbrev Word32 := BitVec 32

end Sys2Proof
end

