-- ==== Sys2Proof/Config.lean ====
section
/-! DEFINITION. The parameters of the spec: those D0 fixes (spec/00_scope.md R5), as constants; those it leaves open (R6),
as the fields of `Config`, which State carries; and the free values, opaque constants that no proof can evaluate. -/

namespace Sys2Proof

/-- `DATA_BYTES` (R5): data bytes per frame. -/
abbrev dataBytes : Nat := 8

/-- `HW_STATUS_BYTES` (R5): status bytes the radio appends. -/
abbrev hwStatusBytes : Nat := 2

/-- `SW_STATUS_BYTES` (R5): the status byte the block appends. -/
abbrev swStatusBytes : Nat := 1

/-- `STATUS_BYTES` (R5). -/
abbrev statusBytes : Nat := hwStatusBytes + swStatusBytes

/-- `N` (R5): the length of the frame buffer. -/
abbrev frameLen : Nat := dataBytes + statusBytes

/-- `IDX_RSSI` (R5): index of the signal-strength byte. -/
abbrev idxRssi : Nat := dataBytes

/-- `IDX_LQI` (R5): index of the link-quality byte. -/
abbrev idxLqi : Nat := dataBytes + 1

/-- `IDX_FOE` (R5): index of the frequency-offset byte. -/
abbrev idxFoe : Nat := frameLen - 1

/-- `FRAC_BITS` (R5): fractional bits of the synthesizer word. -/
abbrev fracBits : Nat := 16

/-- `SYN_BYTES` (R5): bytes of the synthesizer word. -/
abbrev synBytes : Nat := 3

/-- `CRC_POLY` (R5). -/
abbrev crcPoly : Word16 := 0x1021

/-- `CRC_INIT` (R5). -/
abbrev crcInit : Word16 := 0x0000

/-- The open parameters of R6 (92_eei_decisions.md P1 to P7). A model takes each as an argument; here State carries the
record, no step changes it, and statements hold for every value (log 2). `SETTLE_MS / TICK_MS` = 2 of R5 is the number of
`WaitTick` micro-steps of `CAL` and is written there. -/
structure Config where
  /-- `REFERENCE_HZ` (P1). -/
  referenceHz : Nat
  /-- `POLL_MAX_IDLE` (P2). -/
  pollMaxIdle : Nat
  /-- `POLL_MAX_RX` (P3). -/
  pollMaxRx : Nat
  /-- `POLL_MAX_ISR` (P4). -/
  pollMaxIsr : Nat
  /-- `NUM_CHANNELS` (P5). -/
  numChannels : Nat
  /-- `DWELL_ITER` (P6). -/
  dwellIter : Nat
  /-- `BAND_LO_HZ` (P7). -/
  bandLoHz : Nat
  /-- `BAND_HI_HZ` (P7). -/
  bandHiHz : Nat
deriving DecidableEq, Repr

/-- The values the spec's test vectors use (95_test_vectors.md §0); the band is every 32-bit frequency. They are what
`State.reset` carries, since a reset state needs some record; no rule fixes one. DESIGN CHOICE (log 2): unsafe for a
statement about `State.reset` alone that leans on these numbers. -/
def Config.vectors : Config where
  referenceHz := 26000000
  pollMaxIdle := 3
  pollMaxRx := 3
  pollMaxIsr := 3
  numChannels := 2
  dwellIter := 1
  bandLoHz := 0
  bandHiHz := 4294967295

/-- The nine fields of a Channel Entry (10_state.md R31). -/
inductive Field where
  | freq | syn2 | syn1 | syn0 | cal3 | cal2 | cal1 | current | max
deriving DecidableEq, Repr

/-- The items that hold no value after reset (10_state.md R42). -/
inductive Item where
  | syn2
  | syn1
  | syn0
  | crc
  | rsp
  | buf (i : Nat)
  | tab (f : Field) (ch : Nat)
deriving DecidableEq, Repr

/-- FREE VALUE (log 3). What an item that has not been written since the `epoch`-th reset reads as: "Real hardware returns
some bit pattern; no claim may depend on which" (10_state.md R43), `any value` (93_implementation_defined.md U6). A
narrower item takes the low bits. It has no body: nothing can evaluate it. -/
opaque Config.noValue : Nat → Item → BitVec 32

/-- FREE VALUE (log 1). The radio's answer to the `k`-th draw where the script of draws is exhausted (00_scope.md R16,
60_exceptions.md R144, R161: any value of the port's width). A narrower port takes the low bits. It has no body. -/
opaque Config.freeDraw : Nat → Word24

end Sys2Proof
end

