-- ==== Sys2Proof/Syntax.lean ====
section
/-! DEFINITION. The operations of the block (spec/00_scope.md R8): the fifteen host commands of 30_encoding.md R71 and the
three radio events of R72, one constructor per row of spec/opcode_table.json. -/

namespace Sys2Proof

/-- An operation with its operands (30_encoding.md R70): `hz` in hertz, `ch` a channel index, `i` a buffer index, `b` a
byte, each unsigned and unscaled. -/
inductive Instr where
  /-- `TUNE hz`, 40_synth.md R87. -/
  | tune (hz : Word32)
  /-- `CAL ch, hz`, 41_caltable.md R94. -/
  | cal (ch : Byte) (hz : Word32)
  /-- `TUNECH ch`, 41_caltable.md R96. -/
  | tunech (ch : Byte)
  /-- `SWEEP`, 41_caltable.md R97. -/
  | sweep
  /-- `CLRRDY`, 42_frame.md R118. -/
  | clrrdy
  /-- `RDBUF i`, 42_frame.md R119. -/
  | rdbuf (i : Byte)
  /-- `RDSTAT`, 42_frame.md R120. -/
  | rdstat
  /-- `RDSYN`, 40_synth.md R91. -/
  | rdsyn
  /-- `RDCHF ch`, 41_caltable.md R100. -/
  | rdchf (ch : Byte)
  /-- `RDCHS ch`, 41_caltable.md R101. -/
  | rdchs (ch : Byte)
  /-- `RDCHC ch`, 41_caltable.md R102. -/
  | rdchc (ch : Byte)
  /-- `RDCHR ch`, 41_caltable.md R103. -/
  | rdchr (ch : Byte)
  /-- `CRCCLR`, 43_crc.md R131. -/
  | crcclr
  /-- `CRCUPD b`, 43_crc.md R132. -/
  | crcupd (b : Byte)
  /-- `CRCRD`, 43_crc.md R133. -/
  | crcrd
  /-- `EV.SFD`, 42_frame.md R110. Its `data` field is ignored (30_encoding.md R68), so it carries none. -/
  | evSfd
  /-- `EV.BYTE b`, 42_frame.md R111: `b` is the byte the handler's `RxRead()` returns. -/
  | evByte (b : Byte)
  /-- `EV.OVF`, 42_frame.md R113. Its `data` field is ignored (30_encoding.md R68), so it carries none. -/
  | evOvf
deriving DecidableEq, Repr

/-- A radio event (format E10), as against a host command (format C48). -/
def Instr.isEvent : Instr → Bool
  | .tune _ => false
  | .cal _ _ => false
  | .tunech _ => false
  | .sweep => false
  | .clrrdy => false
  | .rdbuf _ => false
  | .rdstat => false
  | .rdsyn => false
  | .rdchf _ => false
  | .rdchs _ => false
  | .rdchc _ => false
  | .rdchr _ => false
  | .crcclr => false
  | .crcupd _ => false
  | .crcrd => false
  | .evSfd => true
  | .evByte _ => true
  | .evOvf => true

end Sys2Proof
end

