-- ==== Sys2Proof/Decode.lean ====
section
/-! DEFINITION. Encodings (spec/30_encoding.md): the formats C48 (R67) and E10 (R68), the decoder of each port, total on
every word and rejecting by name, the encoder, and the opcode table's rows as masks and matches (R71, R72). -/

namespace Sys2Proof

/-- Why a word is no operation. -/
inductive DecodeError where
  /-- The `op` field is none of the fifteen opcodes (R76). -/
  | reservedOp
  /-- The opcode is defined and a must-be-zero field is not zero (R73, R76). -/
  | mustBeZero
  /-- `kind = 0` on the event port: the idle pattern, not an event (R75). -/
  | noEvent
  /-- A word wider than its port (R77): only a caller outside the machine can offer one. -/
  | tooWide
deriving DecidableEq, Repr

/-- A word on the port it arrives on; the port tells the length (R77). -/
inductive PortWord where
  | command (w : BitVec 48)
  | event (w : BitVec 10)
deriving DecidableEq, Repr

/-! ## The fields of a word -/

/-- `op`, bits 47:40 of a command word (R67). -/
def cmdOp (w : BitVec 48) : Byte := w.extractLsb' 40 8

/-- `idx`, bits 39:32 of a command word (R67). -/
def cmdIdx (w : BitVec 48) : Byte := w.extractLsb' 32 8

/-- `arg`, bits 31:0 of a command word (R67). -/
def cmdArg (w : BitVec 48) : Word32 := w.extractLsb' 0 32

/-- A command word from its fields, `op` highest (R67). -/
def cmdWord (op idx : Byte) (arg : Word32) : BitVec 48 := op ++ idx ++ arg

/-- `kind`, bits 9:8 of an event word (R68). -/
def evKind (w : BitVec 10) : BitVec 2 := w.extractLsb' 8 2

/-- `data`, bits 7:0 of an event word (R68). -/
def evData (w : BitVec 10) : Byte := w.extractLsb' 0 8

/-- An event word from its fields, `kind` highest (R68). -/
def evWord (kind : BitVec 2) (data : Byte) : BitVec 10 := kind ++ data

/-- `arg[7:0]`, the byte operand of `CRCUPD` (R70). -/
def argByte (arg : Word32) : Byte := arg.extractLsb' 0 8

/-- `arg[31:8]`, must be zero in `CRCUPD` (R71). -/
def argHigh (arg : Word32) : Word24 := arg.extractLsb' 8 24

/-! ## Decoding -/

/-- Accept `i` if the must-be-zero fields are zero (R73). -/
def ifZero (zero : Bool) (i : Instr) : Except DecodeError Instr :=
  if zero then .ok i else .error .mustBeZero

/-- The operation of a command word (R71, R73, R76). -/
def decodeCommand (w : BitVec 48) : Except DecodeError Instr :=
  let idx := cmdIdx w
  let arg := cmdArg w
  let noIdx := decide (idx = 0)
  let noArg := decide (arg = 0)
  match (cmdOp w).toNat with
  | 0x01 => ifZero noIdx (.tune arg)
  | 0x02 => .ok (.cal idx arg)
  | 0x03 => ifZero noArg (.tunech idx)
  | 0x04 => ifZero (noIdx && noArg) .sweep
  | 0x08 => ifZero (noIdx && noArg) .clrrdy
  | 0x09 => ifZero noArg (.rdbuf idx)
  | 0x0A => ifZero (noIdx && noArg) .rdstat
  | 0x0B => ifZero (noIdx && noArg) .rdsyn
  | 0x0C => ifZero noArg (.rdchf idx)
  | 0x0D => ifZero noArg (.rdchs idx)
  | 0x0E => ifZero noArg (.rdchc idx)
  | 0x0F => ifZero noArg (.rdchr idx)
  | 0x10 => ifZero (noIdx && noArg) .crcclr
  | 0x11 => ifZero (noIdx && decide (argHigh arg = 0)) (.crcupd (argByte arg))
  | 0x12 => ifZero (noIdx && noArg) .crcrd
  | _ => .error .reservedOp

/-- The operation of an event word (R72, R75); the `data` field of the frame-start and overflow events is ignored. -/
def decodeEvent (w : BitVec 10) : Except DecodeError Instr :=
  match (evKind w).toNat with
  | 1 => .ok .evSfd
  | 2 => .ok (.evByte (evData w))
  | 3 => .ok .evOvf
  | _ => .error .noEvent

/-- The decoder: each port has its own (R77). -/
def decode : PortWord → Except DecodeError Instr
  | .command w => decodeCommand w
  | .event w => decodeEvent w

/-- The word of a table row as the port's word: a row of at most 16 bits is an event word (format E10, ten bits), a wider
one a command word (format C48). The table numbers the bits as the ports do, bit 0 the least significant. -/
def portWordOf (nbits w : Nat) : Except DecodeError PortWord :=
  if nbits ≤ 16 then
    if w < 2 ^ 10 then .ok (.event (BitVec.ofNat 10 w)) else .error .tooWide
  else
    if w < 2 ^ 48 then .ok (.command (BitVec.ofNat 48 w)) else .error .tooWide

/-- The instruction the decoder reads from an instruction whose bits are `w`. -/
def decodeTableWord (nbits w : Nat) : Option Instr :=
  match portWordOf nbits w with
  | .error _ => none
  | .ok p =>
    match decode p with
    | .ok i => some i
    | .error _ => none

/-! ## Encoding -/

/-- The word of an operation, must-be-zero and ignored fields zero (R71, R72). -/
def encode : Instr → PortWord
  | .tune hz => .command (cmdWord 0x01 0 hz)
  | .cal ch hz => .command (cmdWord 0x02 ch hz)
  | .tunech ch => .command (cmdWord 0x03 ch 0)
  | .sweep => .command (cmdWord 0x04 0 0)
  | .clrrdy => .command (cmdWord 0x08 0 0)
  | .rdbuf i => .command (cmdWord 0x09 i 0)
  | .rdstat => .command (cmdWord 0x0A 0 0)
  | .rdsyn => .command (cmdWord 0x0B 0 0)
  | .rdchf ch => .command (cmdWord 0x0C ch 0)
  | .rdchs ch => .command (cmdWord 0x0D ch 0)
  | .rdchc ch => .command (cmdWord 0x0E ch 0)
  | .rdchr ch => .command (cmdWord 0x0F ch 0)
  | .crcclr => .command (cmdWord 0x10 0 0)
  | .crcupd b => .command (cmdWord 0x11 0 ((0 : Word24) ++ b))
  | .crcrd => .command (cmdWord 0x12 0 0)
  | .evSfd => .event (evWord 1 0)
  | .evByte b => .event (evWord 2 b)
  | .evOvf => .event (evWord 3 0)

/-! ## The opcode table's rows -/

/-- A row of format C48: "the word selects the row when `word and mask = match`" (R71). -/
structure CommandRow where
  mnemonic : String
  pattern : BitVec 48
  mask : BitVec 48
deriving DecidableEq, Repr

/-- A row of format E10 (R72). -/
structure EventRow where
  mnemonic : String
  pattern : BitVec 10
  mask : BitVec 10
deriving DecidableEq, Repr

/-- The fifteen rows of R71, in its order. -/
def commandRows : List CommandRow :=
  [ ⟨"TUNE", 0x010000000000, 0xFFFF00000000⟩,
    ⟨"CAL", 0x020000000000, 0xFF0000000000⟩,
    ⟨"TUNECH", 0x030000000000, 0xFF00FFFFFFFF⟩,
    ⟨"SWEEP", 0x040000000000, 0xFFFFFFFFFFFF⟩,
    ⟨"CLRRDY", 0x080000000000, 0xFFFFFFFFFFFF⟩,
    ⟨"RDBUF", 0x090000000000, 0xFF00FFFFFFFF⟩,
    ⟨"RDSTAT", 0x0A0000000000, 0xFFFFFFFFFFFF⟩,
    ⟨"RDSYN", 0x0B0000000000, 0xFFFFFFFFFFFF⟩,
    ⟨"RDCHF", 0x0C0000000000, 0xFF00FFFFFFFF⟩,
    ⟨"RDCHS", 0x0D0000000000, 0xFF00FFFFFFFF⟩,
    ⟨"RDCHC", 0x0E0000000000, 0xFF00FFFFFFFF⟩,
    ⟨"RDCHR", 0x0F0000000000, 0xFF00FFFFFFFF⟩,
    ⟨"CRCCLR", 0x100000000000, 0xFFFFFFFFFFFF⟩,
    ⟨"CRCUPD", 0x110000000000, 0xFFFFFFFFFF00⟩,
    ⟨"CRCRD", 0x120000000000, 0xFFFFFFFFFFFF⟩ ]

/-- The three rows of R72. -/
def eventRows : List EventRow :=
  [ ⟨"EV.SFD", 0x100, 0x300⟩, ⟨"EV.BYTE", 0x200, 0x300⟩, ⟨"EV.OVF", 0x300, 0x300⟩ ]

/-- The mnemonic of an operation, as spec/opcode_table.json spells it. -/
def Instr.mnemonic : Instr → String
  | .tune _ => "TUNE"
  | .cal _ _ => "CAL"
  | .tunech _ => "TUNECH"
  | .sweep => "SWEEP"
  | .clrrdy => "CLRRDY"
  | .rdbuf _ => "RDBUF"
  | .rdstat => "RDSTAT"
  | .rdsyn => "RDSYN"
  | .rdchf _ => "RDCHF"
  | .rdchs _ => "RDCHS"
  | .rdchc _ => "RDCHC"
  | .rdchr _ => "RDCHR"
  | .crcclr => "CRCCLR"
  | .crcupd _ => "CRCUPD"
  | .crcrd => "CRCRD"
  | .evSfd => "EV.SFD"
  | .evByte _ => "EV.BYTE"
  | .evOvf => "EV.OVF"

/-- A command word selects a row. -/
def CommandRow.selects (r : CommandRow) (w : BitVec 48) : Bool := decide (w &&& r.mask = r.pattern)

/-- An event word selects a row. -/
def EventRow.selects (r : EventRow) (w : BitVec 10) : Bool := decide (w &&& r.mask = r.pattern)

end Sys2Proof
end

