-- ==== Sys2Proof/Machine/State.lean ====
section
/-! DEFINITION. The state of the block as plain data (spec/10_state.md R20, which is complete), with what the outside will
do (`Env`), the output pulses of the last step (`Outputs`), the configuration, and the state after reset (R42). -/

namespace Sys2Proof.Machine

/-- Why the machine stops with a fault: never. "The block raises nothing to the host" (60_exceptions.md R137), and
93_implementation_defined.md says "The block has no `fault` and no `stuck` outcome". Nobody raises one; that no run ends
in a fault is the spec's own statement, so the empty type is safe. -/
inductive Fault
deriving DecidableEq, Repr

/-- Why an operation has no meaning: `refuse(reason)` of 00_scope.md R17. A refusal is safe: it defines no next state. -/
inductive Refusal where
  /-- The arm of `exec` for an instruction that is not modelled yet raises it, and nothing else does. Safe. -/
  | notModelled (mnemonic : String)
  /-- The step raises it for a command word that matches no row (30_encoding.md R73, R76). Safe: the spec gives such a
  word no meaning. -/
  | reserved
  /-- `RDBUF i` raises it for `i > N-1` (30_encoding.md R74). Safe. -/
  | index
  /-- `CAL`, `TUNECH` and the `RDCH*` commands raise it for `ch ≥ NUM_CHANNELS` (30_encoding.md R74). Safe. -/
  | channel
  /-- `TUNE` and `CAL` raise it for `freq_word(hz) ≥ 2^24` (30_encoding.md R74, 40_synth.md R83: D0's one "undefined
  behavior"). Safe. -/
  | overflow
deriving DecidableEq, Repr

/-- The Radio Session State (R28). The type has no name for the encodings 6 and 7 (93 U16). -/
inductive Session where
  | idle
  | calibrating
  | listening
  | receiving
  | frameReady
  | overflowError
deriving DecidableEq, Repr

/-- What `ModeRead()` distinguishes (00_scope.md R15). -/
inductive RMode where
  | idle | cal | rx | other
deriving DecidableEq, Repr

/-- The strobes of the strobe port (20_memory.md R52). -/
inductive Strobe where
  | idle | rx | cal
deriving DecidableEq, Repr

/-- The micro-steps of the commands that take more than one: T1 to T8 of `TUNE` (40_synth.md R87; each wait alternates a
poll and a tick, R84), C1 to C8 of `CAL` (41_caltable.md R94; C4 is two ticks), U1 to U3 of `TUNECH` (R96), S0 to S4 of
`SWEEP` with its final response (R97, R98; S0 is two micro-steps); and the only one of every other command. -/
inductive Micro where
  | t1 | t2Poll | t2Tick | t3 | t4 | t5 | t6 | t7Poll | t7Tick | t8
  | c1 | c2 | c3 | c4First | c4Second | c5 | c6 | c7 | c8
  | u1 | u2 | u3
  | s0Syn | s0Cal | s1 | s2 | s3 | s4 | sEnd
  | only
deriving DecidableEq, Repr

/-- The main sequencer (R40). `op`, `ch` and `hz` are the fields of the command word latched whole at acceptance
(20_memory.md R66); `step` is the next micro-step. R40 has one counter `n` for "the poll, tick, dwell and channel loops";
`SWEEP` nests the dwell loop in the channel loop, so the channel loop has a counter of its own, `chan`. DESIGN CHOICE
(log 5), safe. -/
structure Mseq where
  busy : Bool
  op : Byte
  step : Micro
  hz : Word32
  ch : Byte
  n : Nat
  chan : Nat
deriving DecidableEq, Repr

/-- A Channel Entry: the nine fields of R31 at the widths its table gives. They sum to 96 bits, where R20 and R31 say 88 in
total; the widths are followed. DESIGN CHOICE (log 22), unsafe if the total is the right one. -/
structure Entry where
  freq : Word32
  syn2 : Byte
  syn1 : Byte
  syn0 : Byte
  cal3 : Byte
  cal2 : Byte
  cal1 : Byte
  current : Byte
  max : Byte
deriving DecidableEq, Repr

/-- The frame buffer `BUF` (20_memory.md R46): the bytes that have a value, by index; indices strictly rise. An index
that is not listed has no value (R43). -/
abbrev Memory := List Host.Cell

/-- The channel calibration table `TAB` (20_memory.md R48): the entries that have been written, by channel; channels
strictly rise. A channel that is not listed has no value (R32, R43). -/
abbrev Table := List (Nat × Entry)

/-- Who moves next in the total order of 20_memory.md R64, and what the port then shows. -/
inductive Turn where
  /-- The block takes its step. -/
  | block
  /-- The radio presents an event word (20_memory.md R51, 60_exceptions.md R143). -/
  | event (w : BitVec 10)
  /-- `rst` is asserted (70_reset_and_hazards.md R166). -/
  | rst
deriving DecidableEq, Repr

/-- What the outside will do. `turns` is the interleaving (60_exceptions.md R147: free), and when it is used up every
further turn is the block's; `cmds` are the words the host will present on the command port (20_memory.md R50), one at a
time; the other lists are the radio's answers to the reads of the radio control surface (00_scope.md R16), `modes` on the
mode port (R53), `rssis` and `foes` on the sample ports (R56), `cals` on the calibration port (R57), `rxs` the free draws
of `RxRead()` (60_exceptions.md R144). A list that is used up is continued by `Config.freeDraw` at `drawn`, the number of
draws taken so far. DESIGN CHOICE (log 1), safe: every state has its own lists, so a statement about every state is about
every finite interleaving and every answer. -/
structure Env where
  turns : List Turn
  cmds : List (BitVec 48)
  modes : List (BitVec 2)
  rssis : List Byte
  foes : List Byte
  cals : List Word24
  rxs : List Byte
  drawn : Nat
deriving DecidableEq, Repr

/-- The output pulses of the last step: `strobe_valid` and `strobe` (20_memory.md R52), `cal_wr` and `cal_out` (R57),
`rx_rd` (R54), `rsp_valid` (R50). Each is high for one step only. The lines that follow the state (`rsp_data`,
`cmd_ready`, `syn`, `frame_ready`) are computed from it in Ops.lean. -/
structure Outputs where
  strobe : Option Strobe
  calOut : Option Word24
  rxRd : Bool
  rspValid : Bool
deriving DecidableEq, Repr

/-- No pulse. -/
def Outputs.quiet : Outputs := ⟨none, none, false, false⟩

/-- Nothing is to come from outside. -/
def Env.silent : Env := ⟨[], [], [], [], [], [], [], 0⟩

/-- The sequencer after reset: no command in progress (R42). The other fields have no value there and nothing reads them
while `busy` is 0; the values here are a DESIGN CHOICE (log 4). -/
def Mseq.idle : Mseq := ⟨false, 0, .t1, 0, 0, 0, 0⟩

/-- The state: every item of R20, and the model's own `cfg`, `env`, `out` and `epoch` (INVENTORY.md). -/
structure State where
  /-- The open parameters of R6; no step changes them (log 2). -/
  cfg : Config
  /-- What the outside will do (log 1). -/
  env : Env
  /-- The output pulses of the last step (log 7). -/
  out : Outputs
  /-- `SYN2` (R21). -/
  syn2 : Byte
  /-- `SYN1` (R21). -/
  syn1 : Byte
  /-- `SYN0` (R21). -/
  syn0 : Byte
  /-- `CRC` (R22). -/
  crc : Word16
  /-- `RSP` (R23). -/
  rsp : Word32
  /-- `session` (R28). -/
  session : Session
  /-- `frame_ready` (R25). -/
  frameReady : Bool
  /-- `error` (R26). -/
  error : Bool
  /-- `cursor` (R29). -/
  cursor : BitVec 4
  /-- `buf` (R30). -/
  buf : Memory
  /-- `tab` (R31). -/
  tab : Table
  /-- `pend_sfd` (R37). -/
  pendSfd : Bool
  /-- `pend_byte` (R37). -/
  pendByte : Bool
  /-- `pend_ovf` (R37). -/
  pendOvf : Bool
  /-- `pend_data` (R38): no value after reset and when two bytes arrived for one handler run (60_exceptions.md R143). -/
  pendData : Option Byte
  /-- `in_isr` (R39). -/
  inIsr : Bool
  /-- `mseq` (R40). -/
  mseq : Mseq
  /-- How many resets there have been; the contents of never written items are free values of it (log 3). -/
  epoch : Nat
deriving DecidableEq, Repr

/-- The state right after the `epoch`-th reset (R42, 70_reset_and_hazards.md R166), for a configuration and an outside.
The items R42 leaves without a value (`SYN2`, `SYN1`, `SYN0`, `CRC`, `RSP`) hold free values; `buf` and `tab` list
nothing. DESIGN CHOICE (log 3). -/
def State.resetWith (cfg : Config) (env : Env) (epoch : Nat) : State where
  cfg := cfg
  env := env
  out := Outputs.quiet
  syn2 := (Config.noValue epoch .syn2).setWidth 8
  syn1 := (Config.noValue epoch .syn1).setWidth 8
  syn0 := (Config.noValue epoch .syn0).setWidth 8
  crc := (Config.noValue epoch .crc).setWidth 16
  rsp := Config.noValue epoch .rsp
  session := .idle
  frameReady := false
  error := false
  cursor := 0
  buf := []
  tab := []
  pendSfd := false
  pendByte := false
  pendOvf := false
  pendData := none
  inIsr := false
  mseq := Mseq.idle
  epoch := epoch

/-- The machine right after power-on reset, with nothing to come from outside, carrying the test vectors' parameters. -/
def State.reset : State := State.resetWith Config.vectors Env.silent 0

end Sys2Proof.Machine
end

