-- ==== Sys2Proof/Machine/Operands.lean ====
section
/-! DEFINITION. Operand values: the fixed-point conversion and its limit (spec/40_synth.md R81 to R83), the range checks of
30_encoding.md R74, the normalisation of a signal-strength sample (41_caltable.md R93), the bit reversal (42_frame.md
R107) and the CRC of one byte (43_crc.md R130). -/

namespace Sys2Proof.Machine

/-- `freq_word(hz)` (R81): exact arithmetic on natural numbers, round to nearest, a tie up (R82). -/
def freqWord (c : Config) (hz : Nat) : Nat :=
  (2 * hz * 2 ^ fracBits + c.referenceHz) / (2 * c.referenceHz)

/-- The conversion overflows the 24-bit register (R83). -/
def freqOverflows (c : Config) (hz : Word32) : Bool := decide (2 ^ 24 ≤ freqWord c hz.toNat)

/-- The 24-bit value `SynWrite` takes: `freq_word(hz)`, which fits wherever the operation is admitted (R83). -/
def synWord (c : Config) (hz : Word32) : Word24 := BitVec.ofNat 24 (freqWord c hz.toNat)

/-- The check of R74 on the operand of `TUNE`. -/
def checkHz (c : Config) (hz : Word32) : Option Refusal :=
  if freqOverflows c hz then some .overflow else none

/-- The check of R74 on a channel operand. -/
def checkCh (c : Config) (ch : Byte) : Option Refusal :=
  if ch.toNat < c.numChannels then none else some .channel

/-- The checks of R74 on the operands of `CAL`, in the order of R94: the channel, then the frequency. -/
def checkCal (c : Config) (ch : Byte) (hz : Word32) : Option Refusal :=
  match checkCh c ch with
  | some r => some r
  | none => checkHz c hz

/-- The check of R74 on the operand of `RDBUF`. -/
def checkIndex (i : Byte) : Option Refusal :=
  if i.toNat < frameLen then none else some .index

/-- `norm_rssi(r)` (R93): the sign bit inverted. -/
def normRssi (r : Byte) : Byte := r ^^^ 0x80

/-- `max_u8(a, b)`: the larger byte as an unsigned number (00_scope.md R12). -/
def maxU8 (a b : Byte) : Byte := if a.toNat < b.toNat then b else a

/-- The first step of `rev8` (R107): the nibble swap. -/
def swapNibbles (b : Byte) : Byte := ((b &&& 0xF0) >>> 4) ||| ((b &&& 0x0F) <<< 4)

/-- The second step of `rev8`: the pair swap. -/
def swapPairs (b : Byte) : Byte := ((b &&& 0xCC) >>> 2) ||| ((b &&& 0x33) <<< 2)

/-- The third step of `rev8`: the bit swap. -/
def swapBits (b : Byte) : Byte := ((b &&& 0xAA) >>> 1) ||| ((b &&& 0x55) <<< 1)

/-- `rev8(b)` (R107): bit `i` of the result is bit `7-i` of `b`. -/
def rev8 (b : Byte) : Byte := swapBits (swapPairs (swapNibbles b))

/-- One shift of `crc_byte` (R130): left, and the polynomial where the top bit was set. -/
def crcShift (c : Word16) : Word16 := if c.msb then (c <<< 1) ^^^ crcPoly else c <<< 1

/-- `n` shifts. -/
def crcShifts : Nat → Word16 → Word16
  | 0, c => c
  | n + 1, c => crcShifts n (crcShift c)

/-- `crc_byte(c, b)` (R130): the byte enters the top eight bits, then eight shifts. -/
def crcByte (c : Word16) (b : Byte) : Word16 := crcShifts 8 (c ^^^ (b.setWidth 16 <<< 8))

/-- `crc16(bytes)` (R129). -/
def crc16 (bytes : List Byte) : Word16 := bytes.foldl crcByte crcInit

end Sys2Proof.Machine
end

