-- ==== Sys2Proof/Machine/Ops.lean ====
section
/-! DEFINITION. The named operations over the stores, the registers, the radio control surface, the main sequencer and the
event latches: spec/00_scope.md R14, 20_memory.md, 40_synth.md R84 to R90, 60_exceptions.md R143 to R152. -/

namespace Sys2Proof.Machine

/-! ## Sparse stores -/

/-- The item at key `a`, if it is listed. -/
def Sparse.get? {α : Type} : List (Nat × α) → Nat → Option α
  | [], _ => none
  | (k, v) :: rest, a => if k = a then some v else Sparse.get? rest a

/-- Write the item at key `a`, keeping the keys strictly rising. -/
def Sparse.put {α : Type} : List (Nat × α) → Nat → α → List (Nat × α)
  | [], a, v => [(a, v)]
  | (k, w) :: rest, a, v =>
    if a < k then (a, v) :: (k, w) :: rest
    else if a = k then (a, v) :: rest
    else (k, w) :: Sparse.put rest a v

/-- The canonical form: keys strictly rising, each at least `lo` and below `hi`. An unlisted key has no value (R43), so
no listed value can equal what an unlisted key holds. -/
def Sparse.wf {α : Type} (hi : Nat) : Nat → List (Nat × α) → Bool
  | _, [] => true
  | lo, (k, _) :: rest => decide (lo ≤ k) && decide (k < hi) && Sparse.wf hi (k + 1) rest

/-! ## The frame buffer -/

/-- The canonical form of `BUF`, which has `N` bytes (20_memory.md R46). -/
def Memory.wf (m : Memory) : Bool := Sparse.wf frameLen 0 m

/-- What a byte of `BUF` that has no value reads as: a free value (93_implementation_defined.md U6, log 3). -/
def Memory.unlisted (epoch i : Nat) : Byte := (Config.noValue epoch (.buf i)).setWidth 8

/-- `buf[i]`, read (20_memory.md R47). -/
def State.bufRead (s : State) (i : Nat) : Byte := (Sparse.get? s.buf i).getD (Memory.unlisted s.epoch i)

/-- `buf[i] <- v` (20_memory.md R47). -/
def State.bufWrite (s : State) (i : Nat) (v : Byte) : State := { s with buf := Sparse.put s.buf i v }

/-! ## The channel calibration table -/

/-- The canonical form of `TAB`, which has `NUM_CHANNELS` entries (20_memory.md R48). -/
def Table.wf (numChannels : Nat) (t : Table) : Bool := Sparse.wf numChannels 0 t

/-- What an entry that has no value reads as: a free value in each field (93_implementation_defined.md U6, log 3). -/
def Entry.unlisted (epoch ch : Nat) : Entry where
  freq := Config.noValue epoch (.tab .freq ch)
  syn2 := (Config.noValue epoch (.tab .syn2 ch)).setWidth 8
  syn1 := (Config.noValue epoch (.tab .syn1 ch)).setWidth 8
  syn0 := (Config.noValue epoch (.tab .syn0 ch)).setWidth 8
  cal3 := (Config.noValue epoch (.tab .cal3 ch)).setWidth 8
  cal2 := (Config.noValue epoch (.tab .cal2 ch)).setWidth 8
  cal1 := (Config.noValue epoch (.tab .cal1 ch)).setWidth 8
  current := (Config.noValue epoch (.tab .current ch)).setWidth 8
  max := (Config.noValue epoch (.tab .max ch)).setWidth 8

/-- `tab[ch]`, read (20_memory.md R48). -/
def State.entry (s : State) (ch : Nat) : Entry := (Sparse.get? s.tab ch).getD (Entry.unlisted s.epoch ch)

/-- `tab[ch] <- e`, written (20_memory.md R48). -/
def State.setEntry (s : State) (ch : Nat) (e : Entry) : State := { s with tab := Sparse.put s.tab ch e }

/-- The three synthesizer bytes of an entry as the 24-bit word `{syn2, syn1, syn0}`. -/
def Entry.syn (e : Entry) : Word24 := e.syn2 ++ e.syn1 ++ e.syn0

/-- The three calibration bytes of an entry as `{cal3, cal2, cal1}`. -/
def Entry.cal (e : Entry) : Word24 := e.cal3 ++ e.cal2 ++ e.cal1

/-! ## The radio's answers (draws) -/

/-- The next answer on a port: the head of its script, or a free value where the script is used up (00_scope.md R16). That a
listing's short poll list goes on with its last value is Listing.lean's, which writes the polls out (30_encoding.md R80). -/
def Env.peek {w : Nat} (script : List (BitVec w)) (drawn : Nat) : BitVec w :=
  match script with
  | [] => (Config.freeDraw drawn).setWidth w
  | x :: _ => x

/-- The mode port's encoding (20_memory.md R53). -/
def RMode.ofBits (b : BitVec 2) : RMode :=
  match b.toNat with
  | 0 => .idle
  | 1 => .cal
  | 2 => .rx
  | _ => .other

/-- The mode port's word for a mode (R53). -/
def RMode.bits : RMode → BitVec 2
  | .idle => 0
  | .cal => 1
  | .rx => 2
  | .other => 3

/-- What `ModeRead()` returns (R53). -/
def Env.mode (e : Env) : RMode := RMode.ofBits (Env.peek e.modes e.drawn)

/-- `ModeRead()` was made: its draw is consumed. -/
def Env.afterMode (e : Env) : Env := { e with modes := e.modes.tail, drawn := e.drawn + 1 }

/-- What `RssiRead()` returns (R56). -/
def Env.rssi (e : Env) : Byte := Env.peek e.rssis e.drawn

/-- `RssiRead()` was made. -/
def Env.afterRssi (e : Env) : Env := { e with rssis := e.rssis.tail, drawn := e.drawn + 1 }

/-- What `FoeRead()` returns (R56). -/
def Env.foe (e : Env) : Byte := Env.peek e.foes e.drawn

/-- `FoeRead()` was made. -/
def Env.afterFoe (e : Env) : Env := { e with foes := e.foes.tail, drawn := e.drawn + 1 }

/-- What `CalRead()` returns, `{c3, c2, c1}` (R57). -/
def Env.cal (e : Env) : Word24 := Env.peek e.cals e.drawn

/-- `CalRead()` was made. -/
def Env.afterCal (e : Env) : Env := { e with cals := e.cals.tail, drawn := e.drawn + 1 }

/-- The free draw of an `RxRead()` whose byte has no value (60_exceptions.md R144). -/
def Env.rx (e : Env) : Byte := Env.peek e.rxs e.drawn

/-- That free draw was taken. -/
def Env.afterRx (e : Env) : Env := { e with rxs := e.rxs.tail, drawn := e.drawn + 1 }

/-- The polls of `WaitModeIsr(m, limit)` (40_synth.md R85): at most `limit + 1`, ending at the first that answers `m`. It
returns nothing and writes no state of the block. -/
def Env.pollIsr (m : RMode) : Nat → Env → Env
  | 0, e => e.afterMode
  | limit + 1, e => if e.mode = m then e.afterMode else Env.pollIsr m limit e.afterMode

/-! ## The radio control surface (00_scope.md R14, 20_memory.md R52 to R58) -/

/-- The strobe port's encoding (R52). -/
def Strobe.code : Strobe → BitVec 2
  | .idle => 1
  | .rx => 2
  | .cal => 3

/-- `strobe[1:0]`, 0 for none (R52). -/
def Outputs.strobeBits (o : Outputs) : BitVec 2 :=
  match o.strobe with
  | none => 0
  | some k => k.code

/-- `StrobeIdle()`, `StrobeRx()`, `StrobeCal()` (R52): the code is presented for this step. -/
def State.strobe (s : State) (k : Strobe) : State := { s with out := { s.out with strobe := some k } }

/-- `CalWrite(c3, c2, c1)` (R57): the bytes are presented with `cal_wr = 1` for this step. -/
def State.calWrite (s : State) (c : Word24) : State := { s with out := { s.out with calOut := some c } }

/-- What `RxRead()` returns (R54): `pend_data`, or a free draw where it has no value (60_exceptions.md R144). -/
def State.rxData (s : State) : Byte :=
  match s.pendData with
  | some b => b
  | none => s.env.rx

/-- `RxRead()` (R54): `rx_rd` pulses; a free draw, if that is what was returned, is consumed. -/
def State.rxRead (s : State) : State :=
  { s with
    out := { s.out with rxRd := true }
    env := match s.pendData with
      | some _ => s.env
      | none => s.env.afterRx }

/-- `WaitModeIsr(m, limit)` (40_synth.md R85). -/
def State.waitModeIsr (s : State) (m : RMode) (limit : Nat) : State := { s with env := s.env.pollIsr m limit }

/-- `syn[23:0]`, driven continuously (R55): the synthesizer word `{SYN2, SYN1, SYN0}` (10_state.md R21). -/
def State.syn (s : State) : Word24 := s.syn2 ++ s.syn1 ++ s.syn0

/-- `rsp_data[31:0]` (R50). -/
def State.rspData (s : State) : Word32 := s.rsp

/-- `cmd_ready` (R50): 1 exactly when `mseq.busy = 0`. -/
def State.cmdReady (s : State) : Bool := !s.mseq.busy

/-- The `frame_ready` output line (R58). -/
def State.frameReadyLine (s : State) : Bool := s.frameReady

/-! ## Shared helpers of the commands (40_synth.md) -/

/-- `SynWrite(w)` (R86): most significant byte first. -/
def State.synWrite (s : State) (w : Word24) : State :=
  { s with
    syn2 := w.extractLsb' 16 8
    syn1 := w.extractLsb' 8 8
    syn0 := w.extractLsb' 0 8 }

/-- `session <- S` (10_state.md R28). -/
def State.setSession (s : State) (x : Session) : State := { s with session := x }

/-- `ArmRx()` (R90). -/
def State.armRx (s : State) : State := (s.strobe .rx).setSession .calibrating

/-- `ConfirmRx()` (R90): conditional, so that a handler's result is not overwritten. -/
def State.confirmRx (s : State) : State :=
  { s with session := if s.session = .calibrating then .listening else s.session }

/-- `IfClr()` (60_exceptions.md R152). `pend_data` is not touched. -/
def State.ifClr (s : State) : State := { s with pendSfd := false, pendByte := false, pendOvf := false }

/-! ## The main sequencer (10_state.md R40, 20_memory.md R50, R66) -/

/-- The command word in progress, as it was latched (R66). -/
def Mseq.word (m : Mseq) : BitVec 48 := cmdWord m.op m.ch m.hz

/-- Acceptance (R50, R66): the word is latched whole, the block is busy, and `first` is the next micro-step. -/
def State.accept (s : State) (w : BitVec 48) (first : Micro) : State :=
  { s with mseq := ⟨true, cmdOp w, first, cmdArg w, cmdIdx w, 0, 0⟩ }

/-- Go on to micro-step `m`, with the loop counter at 0. -/
def State.goto (s : State) (m : Micro) : State := { s with mseq := { s.mseq with step := m, n := 0 } }

/-- `WaitTick()` and what follows it in a loop: count it and go on to `m` (R84). -/
def State.tickTo (s : State) (m : Micro) : State := { s with mseq := { s.mseq with step := m, n := s.mseq.n + 1 } }

/-- The `[poll]` of `WaitMode(m, limit)` (40_synth.md R84): the wait is over when the mode is `m` or `n = limit` (then it
gives up silently), and `done` follows in the same micro-step; else the next micro-step is the `[tick]`. -/
def State.waitPoll (s : State) (m : RMode) (limit : Nat) (tick : Micro) (done : State → State) : State :=
  let t := { s with env := s.env.afterMode }
  if s.env.mode = m ∨ s.mseq.n = limit then done t
  else { t with mseq := { t.mseq with step := tick } }

/-- The last micro-step of a command (R50, 10_state.md R23): `RSP` is written, `rsp_valid` is 1 for this step, and the
block is ready again. -/
def State.finish (s : State) (v : Word32) : State :=
  { s with
    rsp := v
    out := { s.out with rspValid := true }
    mseq := { s.mseq with busy := false } }

/-- One micro-step of the command whose word is `w` (R50). A ready block checks the operands (`check`, 30_encoding.md
R74), accepts the word and takes its first micro-step; a block busy with this very word takes the next one; a block busy
with another word does not accept this one (`cmd_ready = 0`, 93 U17). That acceptance and the first micro-step are one
step is a DESIGN CHOICE (log 6), safe. -/
def State.runMicro (s : State) (w : BitVec 48) (check : Option Refusal) (first : Micro) (micro : State → State) :
    Host.Outcome State Fault Refusal :=
  if s.mseq.busy then
    if s.mseq.word = w then .next (micro s) else .next s
  else
    match check with
    | some r => .refused r
    | none => .next (micro (s.accept w first))

/-! ## Events: arrival, dispatch, return (60_exceptions.md) -/

/-- Arrival of an event word (R143): a step of the radio. -/
def State.arrive (s : State) (w : BitVec 10) : State :=
  match decodeEvent w with
  | .ok .evSfd => { s with pendSfd := true }
  | .ok (.evByte b) => { s with pendByte := true, pendData := if s.pendByte then none else some b }
  | .ok .evOvf => { s with pendOvf := true }
  | _ => s

/-- No latch is set. -/
def State.noPending (s : State) : Bool := !s.pendOvf && !s.pendSfd && !s.pendByte

/-- Taking an event (R145, R148): the pending event of highest priority (R146: EV.OVF, then EV.SFD, then EV.BYTE), with
the state its handler starts in: its latch cleared, `in_isr = 1`, nothing saved and nothing switched. -/
def State.takeEvent (s : State) : Option (Instr × State) :=
  if s.pendOvf then some (.evOvf, { s with pendOvf := false, inIsr := true })
  else if s.pendSfd then some (.evSfd, { s with pendSfd := false, inIsr := true })
  else if s.pendByte then some (.evByte s.rxData, { s with pendByte := false, inIsr := true })
  else none

/-- The end of a handler (R149): `in_isr <- 0`, and nothing is restored because nothing was saved. -/
def State.returnFromEvent (s : State) : State := { s with inIsr := false }

/-! ## Reset and the pulses -/

/-- `rst` asserted (70_reset_and_hazards.md R166): every item takes its reset value; a command or handler in progress is
abandoned. The configuration and the outside stay. -/
def State.assertRst (s : State) : State := State.resetWith s.cfg s.env (s.epoch + 1)

/-- The output pulses of the last step go low (20_memory.md R50, R52, R54, R57: each is one step long). -/
def State.quiet (s : State) : State := { s with out := Outputs.quiet }

end Sys2Proof.Machine
end

