-- ==== Sys2Proof/Machine/Flags.lean ====
section
/-! DEFINITION. Flags and status: the encoding of `session` (spec/10_state.md R28), the `STATUS` word (R27), and the writes
of `frame_ready` and `error` (R25, R26). -/

namespace Sys2Proof.Machine

/-- The 3-bit encoding of `session` (R28). -/
def Session.code : Session → BitVec 3
  | .idle => 0
  | .calibrating => 1
  | .listening => 2
  | .receiving => 3
  | .frameReady => 4
  | .overflowError => 5

/-- `STATUS` (R27): session 2:0, frame_ready 3, error 4, zero 7:5, cursor 11:8, zero 31:12. -/
def State.status (s : State) : Word32 :=
  (0 : BitVec 20) ++ s.cursor ++ (0 : BitVec 3) ++ BitVec.ofBool s.error ++ BitVec.ofBool s.frameReady ++ s.session.code

/-- `frame_ready <- 1; session <- FRAME_READY` (42_frame.md R112), the end of the completion sequence. -/
def State.raiseFrameReady (s : State) : State := { s with session := .frameReady, frameReady := true }

/-- `frame_ready <- 0; error <- 0` (40_synth.md R87 T6). -/
def State.clearFlags (s : State) : State := { s with frameReady := false, error := false }

/-- `frame_ready <- 0; if session = FRAME_READY: session <- IDLE` (42_frame.md R118). -/
def State.clearReady (s : State) : State :=
  { s with frameReady := false, session := if s.session = .frameReady then .idle else s.session }

/-- `cursor <- 0; error <- 1; session <- OVERFLOW_ERROR` (42_frame.md R113). -/
def State.raiseOverflow (s : State) : State := { s with cursor := 0, error := true, session := .overflowError }

end Sys2Proof.Machine
end

