-- ==== Sys2Proof/Machine/CalTable.lean ====
section
/-! DEFINITION. The Channel Calibration Table (spec/41_caltable.md): `CAL`, `TUNECH`, `SWEEP` and the reads of the table. -/

namespace Sys2Proof.Machine

/-- C5 of `CAL`: the snapshot (R94). -/
def State.calSnapshot (s : State) (ch : Nat) (hz : Word32) : State :=
  let c := s.env.cal
  let t := s.setEntry ch
    { s.entry ch with
      freq := hz
      syn2 := s.syn2
      syn1 := s.syn1
      syn0 := s.syn0
      cal3 := c.extractLsb' 16 8
      cal2 := c.extractLsb' 8 8
      cal1 := c.extractLsb' 0 8 }
  { t with env := s.env.afterCal }

/-- C6 of `CAL`: the sample (R94); the maximum is zeroed after it. -/
def State.calSample (s : State) (ch : Nat) : State :=
  let t := s.setEntry ch { s.entry ch with current := normRssi s.env.rssi, max := 0 }
  { t with env := s.env.afterRssi }

/-- S3 of `SWEEP`: the sample (R98). -/
def State.sweepSample (s : State) (ch : Nat) : State :=
  let x := normRssi s.env.rssi
  let t := s.setEntry ch { s.entry ch with current := x, max := maxU8 (s.entry ch).max x }
  { t with env := s.env.afterRssi }

/-- The micro-steps of `CAL ch, hz` (R94). C4 is two ticks (`SETTLE_MS / TICK_MS`), `ConfirmRx` in the second. -/
def calMicro (ch : Byte) (hz : Word32) (s : State) : State :=
  match s.mseq.step with
  | .c1 => (s.synWrite (synWord s.cfg hz)).goto .c2
  | .c2 => ((s.strobe .cal).setSession .calibrating).goto .c3
  | .c3 => s.armRx.goto .c4First
  | .c4First => s.tickTo .c4Second
  | .c4Second => s.confirmRx.goto .c5
  | .c5 => (s.calSnapshot ch.toNat hz).goto .c6
  | .c6 => (s.calSample ch.toNat).goto .c7
  | .c7 => ((s.strobe .idle).setSession .idle).goto .c8
  | .c8 => s.finish hz
  | _ => s

/-- `CAL ch, hz` (R94): its next micro-step. Refused for a channel outside the table, and where the synthesizer word
overflows. -/
def execCal (ch : Byte) (hz : Word32) (s : State) : Host.Outcome State Fault Refusal :=
  s.runMicro (cmdWord 0x02 ch hz) (checkCal s.cfg ch hz) .c1 (calMicro ch hz)

/-- The micro-steps of `TUNECH ch` (R96). -/
def tunechMicro (ch : Byte) (s : State) : State :=
  match s.mseq.step with
  | .u1 => (s.synWrite (s.entry ch.toNat).syn).goto .u2
  | .u2 => (s.calWrite (s.entry ch.toNat).cal).goto .u3
  | .u3 => s.finish 0
  | _ => s

/-- `TUNECH ch` (R96): its next micro-step. Refused for a channel outside the table. -/
def execTunech (ch : Byte) (s : State) : Host.Outcome State Fault Refusal :=
  s.runMicro (cmdWord 0x03 ch 0) (checkCh s.cfg ch) .u1 (tunechMicro ch)

/-- The head of the channel loop of `SWEEP` (R97): channel `k` is next, or all are done. -/
def State.sweepChannel (s : State) (k : Nat) : State :=
  { s with mseq := { s.mseq with chan := k, n := 0, step := if k < s.cfg.numChannels then .s0Syn else .sEnd } }

/-- The micro-steps of `SWEEP` (R97) over `SweepChannel` (R98); `mseq.chan` is the channel. S2 is `DWELL_ITER`
micro-steps, the last of which carries `ConfirmRx`. -/
def sweepMicro (s : State) : State :=
  match s.mseq.step with
  | .s0Syn => (s.synWrite (s.entry s.mseq.chan).syn).goto .s0Cal
  | .s0Cal => (s.calWrite (s.entry s.mseq.chan).cal).goto .s1
  | .s1 => s.armRx.goto .s2
  | .s2 => if s.mseq.n + 1 < s.cfg.dwellIter then s.tickTo .s2 else s.confirmRx.goto .s3
  | .s3 => (s.sweepSample s.mseq.chan).goto .s4
  | .s4 => ((s.strobe .idle).setSession .idle).sweepChannel (s.mseq.chan + 1)
  | .sEnd => s.finish 0
  | _ => s

/-- The first micro-step of `SWEEP`: S0 of channel 0 (there is one, R6). -/
def sweepFirst (c : Config) : Micro := if 0 < c.numChannels then .s0Syn else .sEnd

/-- `SWEEP` (R97): its next micro-step. -/
def execSweep (s : State) : Host.Outcome State Fault Refusal :=
  s.runMicro (cmdWord 0x04 0 0) none (sweepFirst s.cfg) sweepMicro

/-- `RDCHF ch` (R100). -/
def execRdchf (ch : Byte) (s : State) : Host.Outcome State Fault Refusal :=
  s.runMicro (cmdWord 0x0C ch 0) (checkCh s.cfg ch) .only (fun t => t.finish (t.entry ch.toNat).freq)

/-- `RDCHS ch` (R101). -/
def execRdchs (ch : Byte) (s : State) : Host.Outcome State Fault Refusal :=
  s.runMicro (cmdWord 0x0D ch 0) (checkCh s.cfg ch) .only (fun t => t.finish ((t.entry ch.toNat).syn.setWidth 32))

/-- `RDCHC ch` (R102). -/
def execRdchc (ch : Byte) (s : State) : Host.Outcome State Fault Refusal :=
  s.runMicro (cmdWord 0x0E ch 0) (checkCh s.cfg ch) .only (fun t => t.finish ((t.entry ch.toNat).cal.setWidth 32))

/-- `{max, current}` of an entry (R103). -/
def Entry.strengths (e : Entry) : Word16 := e.max ++ e.current

/-- `RDCHR ch` (R103). -/
def execRdchr (ch : Byte) (s : State) : Host.Outcome State Fault Refusal :=
  s.runMicro (cmdWord 0x0F ch 0) (checkCh s.cfg ch) .only (fun t => t.finish ((t.entry ch.toNat).strengths.setWidth 32))

end Sys2Proof.Machine
end

