-- ==== Sys2Proof/Machine/Crc.lean ====
section
/-! DEFINITION. The CRC16-CCITT generator (spec/43_crc.md): `CRCCLR`, `CRCUPD` and `CRCRD`. -/

namespace Sys2Proof.Machine

/-- `CRC <- v` (10_state.md R22). -/
def State.setCrc (s : State) (v : Word16) : State := { s with crc := v }

/-- `CRCCLR` (R131). -/
def execCrcclr (s : State) : Host.Outcome State Fault Refusal :=
  s.runMicro (cmdWord 0x10 0 0) none .only (fun t => (t.setCrc crcInit).finish 0)

/-- `CRCUPD b` (R132): the response is the new value. -/
def execCrcupd (b : Byte) (s : State) : Host.Outcome State Fault Refusal :=
  s.runMicro (cmdWord 0x11 0 ((0 : Word24) ++ b)) none .only
    (fun t => (t.setCrc (crcByte t.crc b)).finish ((crcByte t.crc b).setWidth 32))

/-- `CRCRD` (R133). -/
def execCrcrd (s : State) : Host.Outcome State Fault Refusal :=
  s.runMicro (cmdWord 0x12 0 0) none .only (fun t => t.finish (t.crc.setWidth 32))

end Sys2Proof.Machine
end

