-- ==== Sys2Proof/Machine/Frame.lean ====
section
/-! DEFINITION. The Frame Acquisition State Machine and the Frame Consumer Notification (spec/42_frame.md): the handlers of
the three radio events, and `CLRRDY`, `RDBUF` and `RDSTAT`. -/

namespace Sys2Proof.Machine

/-- The handler of `EV.SFD` (R110): it runs in every session and does not touch the flags. -/
def execEvSfd (s : State) : Host.Outcome State Fault Refusal :=
  .next ({ s with cursor := 0, session := .receiving }).returnFromEvent

/-- The store of one received byte at the cursor (R111): appended, then bit-reversed in place if the cursor is in the
data region (90_conflicts.md C1). -/
def State.appendByte (s : State) (r : Byte) : State :=
  let t := s.bufWrite s.cursor.toNat r
  if s.cursor.toNat < dataBytes then t.bufWrite s.cursor.toNat (rev8 (t.bufRead s.cursor.toNat)) else t

/-- `Complete()` (R112). -/
def State.complete (s : State) : State :=
  let a := (s.strobe .idle).waitModeIsr .idle s.cfg.pollMaxIsr
  let b := a.bufWrite idxRssi (normRssi (a.bufRead idxRssi))
  let c := b.bufWrite idxLqi (b.bufRead idxLqi &&& 0x7F)
  let d := c.bufWrite idxFoe c.env.foe
  { d with env := d.env.afterFoe }.raiseFrameReady

/-- A byte is stored: in `RECEIVING`, with the cursor below `N-1` (R111); otherwise it is dropped (R114). -/
def State.storesByte (s : State) : Bool := decide (s.session = .receiving) && decide (s.cursor.toNat < frameLen - 1)

/-- A byte is stored and brings the cursor to `N-1`, so that the frame is completed (R112). -/
def State.completes (s : State) : Bool := s.storesByte && decide (s.cursor.toNat = frameLen - 2)

/-- The handler of `EV.BYTE` (R111, R114); `b` is what its `RxRead()` returns. -/
def execEvByte (b : Byte) (s : State) : Host.Outcome State Fault Refusal :=
  if s.storesByte then
    let t := s.rxRead.appendByte b
    let u := { t with cursor := t.cursor + 1 }
    .next (if u.cursor.toNat = frameLen - 1 then u.complete.returnFromEvent else u.returnFromEvent)
  else .next s.returnFromEvent

/-- The handler of `EV.OVF` (R113): it runs in every session. -/
def execEvOvf (s : State) : Host.Outcome State Fault Refusal :=
  .next ((s.strobe .idle).waitModeIsr .idle s.cfg.pollMaxIsr).raiseOverflow.returnFromEvent

/-- `CLRRDY` (R118). -/
def execClrrdy (s : State) : Host.Outcome State Fault Refusal :=
  s.runMicro (cmdWord 0x08 0 0) none .only (fun t => t.clearReady.finish 0)

/-- `RDBUF i` (R119). Refused for an index past the buffer (30_encoding.md R74). -/
def execRdbuf (i : Byte) (s : State) : Host.Outcome State Fault Refusal :=
  s.runMicro (cmdWord 0x09 i 0) (checkIndex i) .only (fun t => t.finish ((t.bufRead i.toNat).setWidth 32))

/-- `RDSTAT` (R120). -/
def execRdstat (s : State) : Host.Outcome State Fault Refusal :=
  s.runMicro (cmdWord 0x0A 0 0) none .only (fun t => t.finish t.status)

end Sys2Proof.Machine
end

