-- ==== Sys2Proof/Machine/Synth.lean ====
section
/-! DEFINITION. The Frequency Synthesizer Controller (spec/40_synth.md): `TUNE` and `RDSYN`. -/

namespace Sys2Proof.Machine

/-- The micro-steps of `TUNE hz` (R87). -/
def tuneMicro (hz : Word32) (s : State) : State :=
  match s.mseq.step with
  | .t1 => ((s.strobe .idle).setSession .idle).goto .t2Poll
  | .t2Poll => s.waitPoll .idle s.cfg.pollMaxIdle .t2Tick (fun t => t.goto .t3)
  | .t2Tick => s.tickTo .t2Poll
  | .t3 => s.ifClr.goto .t4
  | .t4 => (s.synWrite (synWord s.cfg hz)).goto .t5
  | .t5 => s.armRx.goto .t6
  | .t6 => s.clearFlags.goto .t7Poll
  | .t7Poll => s.waitPoll .rx s.cfg.pollMaxRx .t7Tick (fun t => t.confirmRx.goto .t8)
  | .t7Tick => s.tickTo .t7Poll
  | .t8 => s.finish hz
  | _ => s

/-- `TUNE hz` (R87): its next micro-step. Refused where the synthesizer word overflows (R83). -/
def execTune (hz : Word32) (s : State) : Host.Outcome State Fault Refusal :=
  s.runMicro (cmdWord 0x01 0 hz) (checkHz s.cfg hz) .t1 (tuneMicro hz)

/-- `RDSYN` (R91). -/
def execRdsyn (s : State) : Host.Outcome State Fault Refusal :=
  s.runMicro (cmdWord 0x0B 0 0) none .only (fun t => t.finish (t.syn.setWidth 32))

end Sys2Proof.Machine
end

