-- ==== Sys2Proof/Machine/Dispatch.lean ====
section
/-! DEFINITION. The dispatch from an operation to its meaning, one arm per constructor. -/

namespace Sys2Proof.Machine

/-- The next atomic step of the operation `i` (spec/00_scope.md R10): one micro-step of a command, or the whole handler of
an event. -/
def exec (i : Instr) (s : State) : Host.Outcome State Fault Refusal :=
  match i with
  | .tune hz => Sys2Proof.Machine.execTune hz s
  | .cal ch hz => Sys2Proof.Machine.execCal ch hz s
  | .tunech ch => Sys2Proof.Machine.execTunech ch s
  | .sweep => Sys2Proof.Machine.execSweep s
  | .clrrdy => Sys2Proof.Machine.execClrrdy s
  | .rdbuf k => Sys2Proof.Machine.execRdbuf k s
  | .rdstat => Sys2Proof.Machine.execRdstat s
  | .rdsyn => Sys2Proof.Machine.execRdsyn s
  | .rdchf ch => Sys2Proof.Machine.execRdchf ch s
  | .rdchs ch => Sys2Proof.Machine.execRdchs ch s
  | .rdchc ch => Sys2Proof.Machine.execRdchc ch s
  | .rdchr ch => Sys2Proof.Machine.execRdchr ch s
  | .crcclr => Sys2Proof.Machine.execCrcclr s
  | .crcupd b => Sys2Proof.Machine.execCrcupd b s
  | .crcrd => Sys2Proof.Machine.execCrcrd s
  | .evSfd => Sys2Proof.Machine.execEvSfd s
  | .evByte b => Sys2Proof.Machine.execEvByte b s
  | .evOvf => Sys2Proof.Machine.execEvOvf s

end Sys2Proof.Machine
end

