-- ==== Sys2Proof/Machine/Fetch.lean ====
section
/-! DEFINITION. Which atomic step comes next (spec/20_memory.md R64, 60_exceptions.md R145 to R147, R163): an arrival, a
reset, the dispatch of a pending event, the next micro-step of the command in progress, or the acceptance of the word on
the command port. -/

namespace Sys2Proof.Machine

/-- The next atomic step. -/
inductive Selected where
  /-- The block takes the next step of operation `i`, from state `s`. -/
  | run (i : Instr) (s : State)
  /-- The step is complete as it stands: an arrival, a reset, or a turn in which the block has nothing to do. -/
  | settled (s : State)
  /-- The word on the command port has no meaning. -/
  | refuse (r : Refusal)

/-- The host's next word is taken off the command port. -/
def State.takeCommand (s : State) : State := { s with env := { s.env with cmds := s.env.cmds.tail } }

/-- The main context's turn (R147): the command in progress, whose operation is decoded from the latched word; or the
next word on the command port (20_memory.md R50), a reserved word being refused (30_encoding.md R76); or nothing, while
the block waits for a command word (70_reset_and_hazards.md R168). A busy sequencer that holds no operation is a state no
run reaches; the block takes no step in it (log 8). -/
def State.selectMain (s : State) : Selected :=
  if s.mseq.busy then
    match decodeCommand s.mseq.word with
    | .ok i => .run i s
    | .error _ => .settled s
  else
    match s.env.cmds with
    | [] => .settled s
    | w :: _ =>
      match decodeCommand w with
      | .ok i => .run i s.takeCommand
      | .error _ => .refuse .reserved

/-- The block's turn: no step while a handler runs (R150; no run reaches such a state, log 8); else the pending event of
highest priority (R145, R146); else the main context's turn, which needs every latch at 0 (R147). -/
def State.selectBlock (s : State) : Selected :=
  if s.inIsr then .settled s
  else
    match s.takeEvent with
    | some (i, t) => .run i t
    | none => s.selectMain

/-- The turn at the head of the interleaving is used up. -/
def State.takeTurn (s : State) : State := { s with env := { s.env with turns := s.env.turns.tail } }

/-- The next atomic step (R64): whose turn it is, with the pulses of the last step gone. -/
def State.select (s : State) : Selected :=
  match s.env.turns with
  | .event w :: _ => .settled (s.quiet.takeTurn.arrive w)
  | .rst :: _ => .settled s.takeTurn.assertRst
  | .block :: _ => s.quiet.takeTurn.selectBlock
  | [] => s.quiet.takeTurn.selectBlock

/-- The state in which the very next step runs the operation whose word is `p`: the block's turn is next, no handler runs
and no command is in progress. A command word is on the command port with no event pending; an event word has just
arrived (R143), alone, so that its handler is what the block dispatches. -/
def State.place (s : State) (p : PortWord) : State :=
  let t := { s with
    env := { s.env with turns := .block :: s.env.turns }
    inIsr := false
    pendSfd := false
    pendByte := false
    pendOvf := false }
  match p with
  | .command w => { t with env := { t.env with cmds := w :: t.env.cmds }, mseq := { t.mseq with busy := false } }
  | .event w => t.arrive w

end Sys2Proof.Machine
end

