-- ==== Sys2Proof/Machine/Step.lean ====
section
/-! DEFINITION. One atomic step of the total order of spec/20_memory.md R64. -/

namespace Sys2Proof.Machine

/-- The next atomic step: the selected operation takes its next step, or the arrival, reset or empty turn stands. -/
def step (s : State) : Host.Outcome State Fault Refusal :=
  match s.select with
  | .run i t => exec i t
  | .settled t => .next t
  | .refuse r => .refused r

/-- `s` with the operation whose table word is `w` where the next step takes it from (`State.place`); a word no port
carries changes nothing. -/
def State.withFetchWord (s : State) (nbits w : Nat) : State :=
  match portWordOf nbits w with
  | .ok p => s.place p
  | .error _ => s

end Sys2Proof.Machine
end

