-- ==== Sys2Proof/Machine/Listing.lean ====
section
/-! DEFINITION. Listings (spec/30_encoding.md R78 to R80): the pseudo-operations of R79, the run of a listing line to its end
(60_exceptions.md R165), and the draws a line carries (R80). -/

namespace Sys2Proof.Machine

/-- `!FRAME r0, ..., r9` (R79): the frame-start event, then one byte event for each raw byte. -/
def frameOps (raw : List Byte) : List Instr := .evSfd :: raw.map .evByte

/-- `CRC16 b0, ..., b(n-1)` (R79). -/
def crc16Ops (bytes : List Byte) : List Instr := .crcclr :: (bytes.map .crcupd ++ [.crcrd])

/-- `RDFRAME` (R79). -/
def rdframeOps : List Instr := (List.range frameLen).map (fun i => .rdbuf (BitVec.ofNat 8 i))

/-- `REARM hz` (R79). -/
def rearmOps (hz : Word32) : List Instr := [.clrrdy, .tune hz]

/-- The line's word is offered on its port, after what is already to come. -/
def State.offer (s : State) (p : PortWord) : State :=
  match p with
  | .command w => { s with env := { s.env with cmds := s.env.cmds ++ [w] } }
  | .event w => { s with env := { s.env with turns := s.env.turns ++ [.event w] } }

/-- The end of a run (R165): no command in progress, no handler running, no event pending, nothing more to come. -/
def State.atRest (s : State) : Bool :=
  !s.mseq.busy && !s.inIsr && s.noPending && s.env.turns.isEmpty && s.env.cmds.isEmpty

/-- At most `fuel` steps, ending at rest. -/
def settle : Nat → State → Host.Outcome State Fault Refusal
  | 0, s => .next s
  | fuel + 1, s =>
    if s.atRest then .next s
    else
      match step s with
      | .next t => settle fuel t
      | .fault r => .fault r
      | .refused r => .refused r

/-- A listing whose lines give no draw (R80: "leaves it free"), one operation a line, each with at most `fuel` steps. -/
def runListing (fuel : Nat) : List Instr → State → Host.Outcome State Fault Refusal
  | [], s => .next s
  | i :: rest, s =>
    match settle fuel (s.offer (encode i)) with
    | .next t => runListing fuel rest t
    | .fault r => .fault r
    | .refused r => .refused r

/-! ## The draws of a line (R80) -/

/-- One pair of square brackets after a line: the poll list of one wait, which has a first value, or one sample. -/
inductive Draw where
  | mode (first : RMode) (more : List RMode)
  | rssi (b : Byte)
  | foe (b : Byte)
  | cal (c3 c2 c1 : Byte)
deriving DecidableEq, Repr

/-- A line: the operations it stands for (one, or those of a pseudo-operation, R79), and the draws it carries, in the order
they are consumed. -/
structure Line where
  ops : List Instr
  draws : List Draw
deriving DecidableEq, Repr

/-- The draws of a line that are still to be consumed, port by port; each poll list is for one wait. -/
structure Draws where
  polls : List (RMode × List RMode)
  rssis : List Byte
  foes : List Byte
  cals : List Word24
deriving DecidableEq, Repr

/-- No draws. -/
def Draws.none : Draws := ⟨[], [], [], []⟩

/-- One pair of brackets more, before the rest. -/
def Draws.add (d : Draws) : Draw → Draws
  | .mode x xs => { d with polls := (x, xs) :: d.polls }
  | .rssi b => { d with rssis := b :: d.rssis }
  | .foe b => { d with foes := b :: d.foes }
  | .cal c3 c2 c1 => { d with cals := (c3 ++ c2 ++ c1) :: d.cals }

/-- The draws of a line, port by port. -/
def Draws.ofList (l : List Draw) : Draws := l.foldr (fun x d => d.add x) Draws.none

/-- What an operation reads from the radio: its waits, each with the mode it waits for and its limit, and how many samples. -/
structure Reads where
  waits : List (RMode × Nat)
  rssi : Nat
  foe : Nat
  cal : Nat
deriving DecidableEq, Repr

/-- No reads. -/
def Reads.none : Reads := ⟨[], 0, 0, 0⟩

/-- What the operation reads when it runs from `s` to its end with no event between: `TUNE` waits twice (40_synth.md R87 T2,
T7), `CAL` and `SWEEP` sample (41_caltable.md R94, R98), the handlers wait for idle, and a completion samples the offset
(42_frame.md R112, R113). -/
def State.readsOf (s : State) : Instr → Reads
  | .tune _ => ⟨[(.idle, s.cfg.pollMaxIdle), (.rx, s.cfg.pollMaxRx)], 0, 0, 0⟩
  | .cal _ _ => ⟨[], 1, 0, 1⟩
  | .tunech _ => Reads.none
  | .sweep => ⟨[], s.cfg.numChannels, 0, 0⟩
  | .clrrdy => Reads.none
  | .rdbuf _ => Reads.none
  | .rdstat => Reads.none
  | .rdsyn => Reads.none
  | .rdchf _ => Reads.none
  | .rdchs _ => Reads.none
  | .rdchc _ => Reads.none
  | .rdchr _ => Reads.none
  | .crcclr => Reads.none
  | .crcupd _ => Reads.none
  | .crcrd => Reads.none
  | .evSfd => Reads.none
  | .evByte _ => if s.completes then ⟨[(.idle, s.cfg.pollMaxIsr)], 0, 1, 0⟩ else Reads.none
  | .evOvf => ⟨[(.idle, s.cfg.pollMaxIsr)], 0, 0, 0⟩

/-- The answers to the polls a wait for `m` takes, from a poll list `x, more` of the line: at most `limit + 1`, up to the first
that is `m` (40_synth.md R84, R85); a list shorter than the polls taken is continued with its last value (R80). -/
def pollDraws (m : RMode) : Nat → RMode → List RMode → List RMode
  | 0, x, _ => [x]
  | limit + 1, x, more =>
    x :: (if x = m then []
      else
        match more with
        | [] => pollDraws m limit x []
        | y :: rest => pollDraws m limit y rest)

/-- The answers to the polls of several waits, the first poll list for the first wait; a wait beyond the lists is left free. -/
def waitDraws : List (RMode × Nat) → List (RMode × List RMode) → List RMode
  | [], _ => []
  | _ :: _, [] => []
  | (m, limit) :: waits, (x, more) :: lists => pollDraws m limit x more ++ waitDraws waits lists

/-- The draws of the line that the operation consumes stand first in the scripts. What is behind them answers the reads for
which the line gives no draw: they are free. -/
def State.giveDraws (s : State) (r : Reads) (d : Draws) : State :=
  { s with env := { s.env with
      modes := (waitDraws r.waits d.polls).map RMode.bits ++ s.env.modes
      rssis := d.rssis.take r.rssi ++ s.env.rssis
      foes := d.foes.take r.foe ++ s.env.foes
      cals := d.cals.take r.cal ++ s.env.cals } }

/-- The draws that are left for the line's later operations. -/
def Draws.drop (d : Draws) (r : Reads) : Draws :=
  ⟨d.polls.drop r.waits.length, d.rssis.drop r.rssi, d.foes.drop r.foe, d.cals.drop r.cal⟩

/-- The operations of a line one after another, each with the draws of the line it consumes and at most `fuel` steps. -/
def runOps (fuel : Nat) : List Instr → Draws → State → Host.Outcome State Fault Refusal
  | [], _, s => .next s
  | i :: rest, d, s =>
    match settle fuel ((s.giveDraws (s.readsOf i) d).offer (encode i)) with
    | .next t => runOps fuel rest (d.drop (s.readsOf i)) t
    | .fault r => .fault r
    | .refused r => .refused r

/-- A listing whose lines carry draws (R80), line by line. -/
def runLines (fuel : Nat) : List Line → State → Host.Outcome State Fault Refusal
  | [], s => .next s
  | l :: rest, s =>
    match runOps fuel l.ops (Draws.ofList l.draws) s with
    | .next t => runLines fuel rest t
    | .fault r => .fault r
    | .refused r => .refused r

end Sys2Proof.Machine
end

