-- ==== Sys2Proof/WellFormed.lean ====
section
/-! DEFINITION. What may be assumed of a configuration (spec/00_scope.md R6, R7) and of an operation (30_encoding.md R74):
Bool checks, so that a test can show each of them refusing. -/

namespace Sys2Proof

/-- The constraints of R6 and 92_eei_decisions.md P1 to P7. That every frequency of the band is representable (R7)
follows from the last one. -/
def Config.wf (c : Config) : Bool :=
  decide (0 < c.referenceHz) &&
  decide (1 ≤ c.numChannels) && decide (c.numChannels ≤ 256) &&
  decide (1 ≤ c.dwellIter) &&
  decide (c.bandLoHz ≤ c.bandHiHz) &&
  decide (Machine.freqWord c c.bandHiHz < 2 ^ 24)

/-- The operand range checks of R74: the condition for an operation to have a meaning. Its last row ("any read of an item
with no value") is no check here: such a read gives a free value (93_implementation_defined.md U6, log 3). -/
def Instr.wellFormed (c : Config) : Instr → Bool
  | .tune hz => decide (Machine.freqWord c hz.toNat < 2 ^ 24)
  | .cal ch hz => decide (ch.toNat < c.numChannels) && decide (Machine.freqWord c hz.toNat < 2 ^ 24)
  | .tunech ch => decide (ch.toNat < c.numChannels)
  | .sweep => true
  | .clrrdy => true
  | .rdbuf i => decide (i.toNat < frameLen)
  | .rdstat => true
  | .rdsyn => true
  | .rdchf ch => decide (ch.toNat < c.numChannels)
  | .rdchs ch => decide (ch.toNat < c.numChannels)
  | .rdchc ch => decide (ch.toNat < c.numChannels)
  | .rdchr ch => decide (ch.toNat < c.numChannels)
  | .crcclr => true
  | .crcupd _ => true
  | .crcrd => true
  | .evSfd => true
  | .evByte _ => true
  | .evOvf => true

end Sys2Proof
end

