-- ==== Sys2Proof/Safety.lean ====
section
/-! DEFINITION. The terms in which statements speak of runs: whose turn it is, where a command stands, the invariant of the
reachable states (spec/42_frame.md R116, 10_state.md R29, R40), admitted words (60_exceptions.md R163), the bound on the
micro-steps left (R164), the frame image (20_memory.md R49), and the assumptions about the radio (R157 to R160). -/

namespace Sys2Proof.Machine

/-! ## Whose turn it is, and where a command stands -/

/-- The next step is the block's, and no handler is running. -/
def State.blockTurn (s : State) : Bool :=
  !s.inIsr &&
  match s.env.turns with
  | [] => true
  | .block :: _ => true
  | .event _ :: _ => false
  | .rst :: _ => false

/-- The next step is the main context's (60_exceptions.md R147): the block's turn with no event pending. -/
def State.mainTurn (s : State) : Bool := s.blockTurn && s.noPending

/-- The state in which the block's step is taken: the pulses of the last step gone, the turn used up. -/
def State.onTurn (s : State) : State := s.quiet.takeTurn

/-- The operation whose next step the machine's next step takes, where it takes one: the pending event of highest priority
(60_exceptions.md R146), or the command in progress, or the command word on the port (20_memory.md R50). -/
def State.nextOp (s : State) : Option Instr :=
  if s.blockTurn then
    if s.pendOvf then some .evOvf
    else if s.pendSfd then some .evSfd
    else if s.pendByte then some (.evByte s.rxData)
    else if s.mseq.busy then (decodeCommand s.mseq.word).toOption
    else
      match s.env.cmds with
      | [] => none
      | w :: _ => (decodeCommand w).toOption
  else none

/-- The command whose word is `w` is in progress, and its next micro-step is `m`. -/
def State.standsAt (s : State) (w : BitVec 48) (m : Micro) : Bool :=
  s.mseq.busy && decide (s.mseq.word = w) && decide (s.mseq.step = m)

/-- The micro-steps of a `TUNE` in progress, with the poll counter in range (10_state.md R40). -/
def Mseq.fitsTune (c : Config) (m : Mseq) : Bool :=
  match m.step with
  | .t2Poll => decide (m.n ≤ c.pollMaxIdle)
  | .t2Tick => decide (m.n < c.pollMaxIdle)
  | .t3 => true
  | .t4 => true
  | .t5 => true
  | .t6 => true
  | .t7Poll => decide (m.n ≤ c.pollMaxRx)
  | .t7Tick => decide (m.n < c.pollMaxRx)
  | .t8 => true
  | _ => false

/-- The micro-steps of a `CAL` in progress. -/
def Mseq.fitsCal (m : Mseq) : Bool :=
  match m.step with
  | .c2 => true
  | .c3 => true
  | .c4First => true
  | .c4Second => true
  | .c5 => true
  | .c6 => true
  | .c7 => true
  | .c8 => true
  | _ => false

/-- The micro-steps of a `TUNECH` in progress. -/
def Mseq.fitsTunech (m : Mseq) : Bool :=
  match m.step with
  | .u2 => true
  | .u3 => true
  | _ => false

/-- The micro-steps of a `SWEEP` in progress, with the dwell and channel counters in range. -/
def Mseq.fitsSweep (c : Config) (m : Mseq) : Bool :=
  match m.step with
  | .s0Syn => decide (m.chan < c.numChannels)
  | .s0Cal => decide (m.chan < c.numChannels)
  | .s1 => decide (m.chan < c.numChannels)
  | .s2 => decide (m.chan < c.numChannels) && decide (m.n < c.dwellIter)
  | .s3 => decide (m.chan < c.numChannels)
  | .s4 => decide (m.chan < c.numChannels)
  | .sEnd => true
  | _ => false

/-- The micro-step of the command in progress is one it takes after its first, with its counters in range. The other
operations have no second micro-step. -/
def Mseq.fits (c : Config) (m : Mseq) : Instr → Bool
  | .tune _ => m.fitsTune c
  | .cal _ _ => m.fitsCal
  | .tunech _ => m.fitsTunech
  | .sweep => m.fitsSweep c
  | .clrrdy => false
  | .rdbuf _ => false
  | .rdstat => false
  | .rdsyn => false
  | .rdchf _ => false
  | .rdchs _ => false
  | .rdchc _ => false
  | .rdchr _ => false
  | .crcclr => false
  | .crcupd _ => false
  | .crcrd => false
  | .evSfd => false
  | .evByte _ => false
  | .evOvf => false

/-- A busy sequencer holds an admitted command of more than one micro-step, at one of its micro-steps. -/
def Mseq.ok (c : Config) (m : Mseq) : Bool :=
  match decodeCommand m.word with
  | .ok i => i.wellFormed c && m.fits c i
  | .error _ => false

/-- What a command of one micro-step with word `w` leaves besides its own writes (20_memory.md R50, R66): the response, its
pulse, and a sequencer that is ready again and still holds the latched fields. -/
def State.responded (s : State) (w : BitVec 48) (v : Word32) : State :=
  { s with
    rsp := v
    out := { s.out with rspValid := true }
    mseq := ⟨false, cmdOp w, .only, cmdArg w, cmdIdx w, 0, 0⟩ }

/-! ## Where the flags and the session change -/

/-- A command in progress is at micro-step `m`. -/
def State.atMicro (s : State) (m : Micro) : Prop := s.mseq.busy = true ∧ s.mseq.step = m

/-- Where operation `i` changes `frame_ready`, between `s` and `t`: it rises in the completion of a frame, and falls by
`CLRRDY` and `TUNE`'s T6 (10_state.md R25, 42_frame.md R116 c). -/
def FrameReadyRow (i : Instr) (s t : State) : Prop :=
  (t.frameReady = true ∧ (∃ b, i = .evByte b) ∧ s.session = .receiving ∧ s.cursor.toNat = frameLen - 2 ∧
    t.session = .frameReady) ∨
  (t.frameReady = false ∧ (i = .clrrdy ∨ ((∃ hz, i = .tune hz) ∧ s.atMicro .t6)))

/-- Where operation `i` changes `error`: it rises in the overflow handler, and falls by `TUNE`'s T6 (10_state.md R26). -/
def ErrorRow (i : Instr) (s t : State) : Prop :=
  (t.error = true ∧ i = .evOvf ∧ t.session = .overflowError) ∨
  (t.error = false ∧ (∃ hz, i = .tune hz) ∧ s.atMicro .t6)

/-- The rows of 42_frame.md R115 in which operation `i` changes `session`, but for the reset, which is no operation. -/
def SessionRow (i : Instr) (s t : State) : Prop :=
  (i = .evSfd ∧ t.session = .receiving) ∨
  ((∃ b, i = .evByte b) ∧ s.session = .receiving ∧ s.cursor.toNat = frameLen - 2 ∧ t.session = .frameReady) ∨
  (i = .evOvf ∧ t.session = .overflowError) ∨
  ((∃ hz, i = .tune hz) ∧ (s.mseq.busy = false ∨ s.mseq.step = .t1) ∧ t.session = .idle) ∨
  ((∃ hz, i = .tune hz) ∧ s.atMicro .t5 ∧ t.session = .calibrating) ∨
  ((∃ hz, i = .tune hz) ∧ s.atMicro .t7Poll ∧ s.session = .calibrating ∧ t.session = .listening) ∨
  ((∃ ch hz, i = .cal ch hz) ∧ (s.atMicro .c2 ∨ s.atMicro .c3) ∧ t.session = .calibrating) ∨
  ((∃ ch hz, i = .cal ch hz) ∧ s.atMicro .c4Second ∧ s.session = .calibrating ∧ t.session = .listening) ∨
  ((∃ ch hz, i = .cal ch hz) ∧ s.atMicro .c7 ∧ t.session = .idle) ∨
  (i = .sweep ∧ s.atMicro .s1 ∧ t.session = .calibrating) ∨
  (i = .sweep ∧ s.atMicro .s2 ∧ s.session = .calibrating ∧ t.session = .listening) ∨
  (i = .sweep ∧ s.atMicro .s4 ∧ t.session = .idle) ∨
  (i = .clrrdy ∧ s.session = .frameReady ∧ t.session = .idle)

/-! ## The invariant -/

/-- What every reachable state satisfies: the configuration is admitted (R6); the stores are in canonical form (20_memory.md
R46, R48); the cursor is in its range (10_state.md R29, 42_frame.md R116 b); `RECEIVING` means the cursor has not reached
`N-1` (R116 a); no handler is running between steps (10_state.md R39); a busy sequencer is at a micro-step of an admitted
command (R40). -/
structure State.Inv (s : State) : Prop where
  cfg : s.cfg.wf = true
  buf : Memory.wf s.buf = true
  tab : Table.wf s.cfg.numChannels s.tab = true
  cursor : s.cursor.toNat ≤ frameLen - 1
  receiving : s.session = .receiving → s.cursor.toNat ≤ frameLen - 2
  notInIsr : s.inIsr = false
  mseq : s.mseq.busy = true → s.mseq.ok s.cfg = true

/-- The host presents only admitted command words (60_exceptions.md R163). -/
def State.HostAdmitted (s : State) : Prop :=
  ∀ w ∈ s.env.cmds, ∃ i, decodeCommand w = .ok i ∧ i.wellFormed s.cfg = true

/-! ## Micro-steps left (60_exceptions.md R164) -/

/-- The most micro-steps the command in progress can still take, whatever the draws. -/
def State.microsLeft (s : State) : Nat :=
  let idleLeft := s.cfg.pollMaxIdle - s.mseq.n
  let rxLeft := s.cfg.pollMaxRx - s.mseq.n
  let rx := 2 * s.cfg.pollMaxRx
  let after := (s.cfg.numChannels - s.mseq.chan - 1) * (5 + s.cfg.dwellIter) + 1
  match s.mseq.step with
  | .t1 => 8 + 2 * s.cfg.pollMaxIdle + rx
  | .t2Poll => 2 * idleLeft + 7 + rx
  | .t2Tick => 2 * idleLeft + 6 + rx
  | .t3 => 6 + rx
  | .t4 => 5 + rx
  | .t5 => 4 + rx
  | .t6 => 3 + rx
  | .t7Poll => 2 * rxLeft + 2
  | .t7Tick => 2 * rxLeft + 1
  | .t8 => 1
  | .c1 => 9
  | .c2 => 8
  | .c3 => 7
  | .c4First => 6
  | .c4Second => 5
  | .c5 => 4
  | .c6 => 3
  | .c7 => 2
  | .c8 => 1
  | .u1 => 3
  | .u2 => 2
  | .u3 => 1
  | .s0Syn => 5 + s.cfg.dwellIter + after
  | .s0Cal => 4 + s.cfg.dwellIter + after
  | .s1 => 3 + s.cfg.dwellIter + after
  | .s2 => 2 + (s.cfg.dwellIter - s.mseq.n) + after
  | .s3 => 2 + after
  | .s4 => 1 + after
  | .sEnd => 1
  | .only => 1

/-- The bound of R164 on the micro-steps of a whole command. -/
def microBound (c : Config) : Instr → Nat
  | .tune _ => 8 + 2 * c.pollMaxIdle + 2 * c.pollMaxRx
  | .cal _ _ => 9
  | .tunech _ => 3
  | .sweep => c.numChannels * (5 + c.dwellIter) + 1
  | .clrrdy => 1
  | .rdbuf _ => 1
  | .rdstat => 1
  | .rdsyn => 1
  | .rdchf _ => 1
  | .rdchs _ => 1
  | .rdchc _ => 1
  | .rdchr _ => 1
  | .crcclr => 1
  | .crcupd _ => 1
  | .crcrd => 1
  | .evSfd => 1
  | .evByte _ => 1
  | .evOvf => 1

/-! ## The frame image -/

/-- The bytes stored since the last frame-start, given the raw bytes read since then: the data bytes bit-reversed, the
status bytes as they came (42_frame.md R111). -/
def storedImage (raw : List Byte) : List Byte := (raw.take dataBytes).map rev8 ++ raw.drop dataBytes

/-- The first bytes of `buf` are these, index by index. -/
def State.bufHolds (s : State) (bytes : List Byte) : Prop :=
  ∀ k, (h : k < bytes.length) → Sparse.get? s.buf k = some bytes[k]

/-- Reception in progress: `raw` are the raw bytes read since the frame-start event. -/
def State.Receiving (s : State) (raw : List Byte) : Prop :=
  s.session = .receiving ∧ raw.length ≤ frameLen - 2 ∧ s.cursor.toNat = raw.length ∧ s.bufHolds (storedImage raw)

/-- The raw bytes read since the last frame-start after the next step, if `raw` are those before it: the dispatch of a
frame-start forgets them, the dispatch of a byte event in `RECEIVING` adds the byte read. -/
def State.rawAfter (s : State) (raw : List Byte) : List Byte :=
  if s.blockTurn && !s.pendOvf then
    if s.pendSfd then []
    else if s.pendByte then raw ++ [s.rxData]
    else raw
  else raw

/-- The frame image of 20_memory.md R49 for eight raw data bytes, the raw status bytes and an offset sample. -/
def frameImage (raw : List Byte) (rssi lqi foe : Byte) : List Byte :=
  raw.map rev8 ++ [normRssi rssi, lqi &&& 0x7F, foe]

/-! ## Assumptions about the radio (60_exceptions.md §6)

R157 to R160 are assumptions about the environment, "not behaviour of the block": no meaning uses them. They are predicates
on a run and on the radio's own mode along it, for use as hypotheses. The mode is not state of the block (10_state.md R41):
`radio k` is the radio's mode when step `k` begins, given beside the run, and the block sees of it what its mode reads
answer. Log 14. -/

/-- A run: each state steps to the next. -/
def IsRun (run : Nat → State) : Prop := ∀ k, step (run k) = .next (run (k + 1))

/-! ### What a step does at the radio -/

/-- The answers of the polls of `WaitModeIsr(m, limit)`, in order (40_synth.md R85). -/
def Env.modesIsr (m : RMode) : Nat → Env → List RMode
  | 0, e => [e.mode]
  | limit + 1, e => e.mode :: (if e.mode = m then [] else Env.modesIsr m limit e.afterMode)

/-- The answers of the mode reads the operation makes in its next step, in order: a poll of `TUNE` (40_synth.md R84), or the
polls of a handler that waits for idle (42_frame.md R112, R113). Nothing else reads the mode. -/
def State.modesReadBy (s : State) : Instr → List RMode
  | .tune _ => if s.mseq.busy && (decide (s.mseq.step = .t2Poll) || decide (s.mseq.step = .t7Poll)) then [s.env.mode] else []
  | .cal _ _ => []
  | .tunech _ => []
  | .sweep => []
  | .clrrdy => []
  | .rdbuf _ => []
  | .rdstat => []
  | .rdsyn => []
  | .rdchf _ => []
  | .rdchs _ => []
  | .rdchc _ => []
  | .rdchr _ => []
  | .crcclr => []
  | .crcupd _ => []
  | .crcrd => []
  | .evSfd => []
  | .evByte _ => if s.completes then s.rxRead.env.modesIsr .idle s.cfg.pollMaxIsr else []
  | .evOvf => s.env.modesIsr .idle s.cfg.pollMaxIsr

/-- The answers of the mode reads of the next step, in order. -/
def State.modesRead (s : State) : List RMode :=
  match s.nextOp with
  | some i => s.modesReadBy i
  | none => []

/-- The next turn is the radio's: an event arrives. -/
def State.eventTurn (s : State) : Bool :=
  match s.env.turns with
  | [] => false
  | .block :: _ => false
  | .event _ :: _ => true
  | .rst :: _ => false

/-- The event presented in the next step, if the next turn is the radio's. -/
def State.eventNext (s : State) : Option Instr :=
  match s.env.turns with
  | [] => none
  | .block :: _ => none
  | .event w :: _ => (decodeEvent w).toOption
  | .rst :: _ => none

/-- The event presented in the next step is a byte event. -/
def State.byteNext (s : State) : Bool :=
  match s.env.turns with
  | [] => false
  | .block :: _ => false
  | .event w :: _ => decide (evKind w = 2)
  | .rst :: _ => false

/-- The next step runs an event handler. -/
def State.handlerTurn (s : State) : Bool := s.blockTurn && !s.noPending

/-- The strobe that step `k` issues, if it issues one. -/
def strobeIn (run : Nat → State) (k : Nat) : Option Strobe := (run (k + 1)).out.strobe

/-! ### The instants of a run at which the radio's mode matters -/

/-- Instant 0 of a step is its beginning, where an event of this step is raised and a strobe of this step has not been issued
yet; instant `i + 1` is its `i`-th mode read, which comes after the strobe (42_frame.md R112, R113; no other step has both). -/
structure Instant where
  step : Nat
  idx : Nat
deriving DecidableEq, Repr

/-- Instant `p` is `q` or comes before it. -/
def Instant.le (p q : Instant) : Prop := p.step < q.step ∨ (p.step = q.step ∧ p.idx ≤ q.idx)

/-- Instant `p` comes after the strobe of step `k`. -/
def Instant.after (p : Instant) (k : Nat) : Prop := k < p.step ∨ (p.step = k ∧ 0 < p.idx)

/-- The radio's mode at instant `p`, if the run has that instant: `ModeRead()` answers the mode there is (20_memory.md R53). -/
def modeAt (run : Nat → State) (radio : Nat → RMode) (p : Instant) : Option RMode :=
  (radio p.step :: (run p.step).modesRead)[p.idx]?

/-- Instant `p` is one at which the event that arrives in step `k` may have been raised: in step `k` itself; or in the step
of the handler that ran just before, since an arrival during a handler stands, in the model, among those that precede the
next dispatch (60_exceptions.md R143). -/
def RaisedAt (run : Nat → State) (k : Nat) (p : Instant) : Prop :=
  p = ⟨k, 0⟩ ∨
  (p.step < k ∧ (run p.step).handlerTurn = true ∧ ∀ i, p.step < i → i < k → (run i).eventTurn = true)

/-! ### The assumptions -/

/-- R157, first sentence: after an idle strobe, if no later strobe is issued, the radio's mode becomes `R_IDLE` for good, how
late is not said; and once it is `R_IDLE` it stays so up to the next strobe. An `rst` between is no strobe and does not end
this: R157 names strobes only, and 70_reset_and_hazards.md R168 says that the radio's state after a reset is not assumed.
That the rule binds the radio across a reset is the model's choice. DESIGN CHOICE (log 14), unsafe as a hypothesis if a
reset frees the radio. -/
def IdleStrobeObeyed (run : Nat → State) (radio : Nat → RMode) : Prop :=
  ∀ j, strobeIn run j = some .idle →
    ((∀ k, j < k → strobeIn run k = none) →
      ∃ m, ∀ p x, m ≤ p.step → modeAt run radio p = some x → x = .idle) ∧
    (∀ p q : Instant, p.after j → p.le q → (∀ k, j < k → q.after k → strobeIn run k = none) →
      modeAt run radio p = some .idle → ∀ x, modeAt run radio q = some x → x = .idle)

/-- R157, second sentence: after a receive strobe that finds the radio idle, if no later strobe is issued, the radio enters
receive mode, how late is not said. The calibration on the way need not be seen at any instant. -/
def ReceiveStrobeObeyed (run : Nat → State) (radio : Nat → RMode) : Prop :=
  ∀ j, strobeIn run j = some .rx → modeAt run radio ⟨j, 0⟩ = some .idle → (∀ k, j < k → strobeIn run k = none) →
    ∃ p : Instant, p.after j ∧ modeAt run radio p = some .rx

/-- R158's "once the radio is idle (in the sense of rule R157)", "until the block issues `StrobeRx()` or `StrobeCal()`": at
instant `p` an idle strobe lies behind, since when the radio's mode has been `R_IDLE` at some instant (`p` itself at the
latest), and no receive or calibrate strobe has been issued since the idle strobe. An `rst` between does not undo it: R158
names the two strobes only, and 70_reset_and_hazards.md R168 assumes nothing of the radio's state after a reset. That
idleness reached before a reset still quiets the radio after it is the model's choice. DESIGN CHOICE (log 14), unsafe as a
hypothesis if a reset frees the radio. -/
def IdleSince (run : Nat → State) (radio : Nat → RMode) (p : Instant) : Prop :=
  ∃ j, strobeIn run j = some .idle ∧
    (∃ q : Instant, q.after j ∧ q.le p ∧ modeAt run radio q = some .idle) ∧
    ∀ k, j < k → p.after k → strobeIn run k ≠ some .rx ∧ strobeIn run k ≠ some .cal

/-- R158: an idle radio raises no frame-start and no byte event: each such event was raised at an instant at which the radio
was not idle. Before it has become idle, and after a receive or calibrate strobe, it may raise them. -/
def IdleRadioIsQuiet (run : Nat → State) (radio : Nat → RMode) : Prop :=
  ∀ k, ((run k).eventNext = some .evSfd ∨ (run k).byteNext = true) →
    ∃ p, RaisedAt run k p ∧ (modeAt run radio p).isSome = true ∧ ¬ IdleSince run radio p

/-- How many byte events the reception in progress may still bring when step `k` begins, if `left` of them remain at the
beginning of the run (0: no reception in progress): a frame-start event begins a reception of eight data bytes, the raw signal
strength and the link quality, in this order, and each byte event is the next of them. The bytes themselves are free. An
overflow, and an instant at which the radio is not in receive mode, leave the count as it is: R159 does not say whether the
rest of a reception so cut may still come, with no new frame-start, once the radio receives again, and it is admitted here.
DESIGN CHOICE (log 14), safe: more runs are admitted. -/
def bytesLeft (run : Nat → State) (left : Nat) : Nat → Nat
  | 0 => left
  | k + 1 =>
    if (run k).eventNext = some .evSfd then dataBytes + hwStatusBytes
    else if (run k).byteNext then bytesLeft run left k - 1
    else bytesLeft run left k

/-- The event that arrives in step `k` was raised in receive mode. -/
def RaisedInReceive (run : Nat → State) (radio : Nat → RMode) (k : Nat) : Prop :=
  ∃ p, RaisedAt run k p ∧ modeAt run radio p = some .rx

/-- R159, the shape of receptions, on a run that begins with `left` byte events of a reception still to come. -/
structure ReceptionShape (run : Nat → State) (radio : Nat → RMode) (left : Nat) : Prop where
  /-- "The radio may raise a new `EV.SFD` at any time it is in receive mode, including mid-frame", and at no other. -/
  start : ∀ k, (run k).eventNext = some .evSfd → RaisedInReceive run radio k
  /-- "In receive mode" a byte event comes only as one of the ten of a reception that a frame-start began. -/
  byte : ∀ k, (run k).byteNext = true → RaisedInReceive run radio k ∧ 0 < bytesLeft run left k
  /-- "The length is fixed": a frame-start is followed by all ten byte events, unless the reception is cut before: a new
  frame-start is raised, or an overflow, or the radio is at some instant not in receive mode (log 14). Of a reception so cut
  nothing more is required; after the last two, what is left of it may still come (`bytesLeft`). When is not assumed. -/
  whole : ∀ j, (run j).eventNext = some .evSfd →
    ∃ k, j < k ∧ (bytesLeft run left k = 0 ∨ (run k).eventNext = some .evSfd ∨ (run k).eventNext = some .evOvf ∨
      ∃ p x, p.step = k ∧ modeAt run radio p = some x ∧ x ≠ .rx)

/-- R160: the radio raises an overflow only while it is not idle: each was raised at an instant at which its mode was not
`R_IDLE`. What the handler's polls read afterwards is not constrained by it. -/
def OverflowOnlyWhenBusy (run : Nat → State) (radio : Nat → RMode) : Prop :=
  ∀ k, (run k).eventNext = some .evOvf → ∃ p x, RaisedAt run k p ∧ modeAt run radio p = some x ∧ x ≠ .idle

end Sys2Proof.Machine
end

