-- ==== Sys2Proof/Certificates/Slice0/Obligations.lean ====
section
/-! DEFINITION. The statements for the provers. Each docstring names the rules of spec/ it formalises; a statement that rests
on a choice of the model names the log entry. -/

open Sys2Proof Sys2Proof.Machine

/-! ## Encodings (spec/30_encoding.md) -/

/-- R67, R68, R70 to R73: decoding the word of an operation gives the operation back, with every operand at every value; and
a command word that decodes is the word of the operation it decodes to, so no bit of it is ignored; an event word that
decodes has the kind of the operation's word, and for a byte event its data too. -/
def Obligations.DecodeAndEncodeAreInverse : Prop :=
  (∀ i : Instr, decode (encode i) = .ok i) ∧
  (∀ w i, decodeCommand w = .ok i → encode i = .command w) ∧
  (∀ w i, decodeEvent w = .ok i → ∃ d, encode i = .event (evWord (evKind w) d) ∧ ((∃ b, i = .evByte b) → d = evData w))

/-- R71 to R73, R76: a command word decodes exactly when some row of the opcode table selects it, and then that row is the
only one and is the row of the operation; the same for event words. -/
def Obligations.DecoderFollowsTheOpcodeTable : Prop :=
  (∀ w : BitVec 48,
    match decodeCommand w with
    | .ok i => ∃ r ∈ commandRows, r.mnemonic = i.mnemonic ∧ ∀ r' ∈ commandRows, (r'.selects w = true ↔ r' = r)
    | .error _ => ∀ r ∈ commandRows, r.selects w = false) ∧
  (∀ w : BitVec 10,
    match decodeEvent w with
    | .ok i => ∃ r ∈ eventRows, r.mnemonic = i.mnemonic ∧ ∀ r' ∈ eventRows, (r'.selects w = true ↔ r' = r)
    | .error _ => ∀ r ∈ eventRows, r.selects w = false)

/-- Words of the encoding tables (95_test_vectors.md V-ENC-1, V-ENC-2) decode to what they stand for. 20_memory.md R52, R53:
the codes of the strobe port (0 none, 1 idle, 2 receive, 3 calibrate), which a strobe presents, and of the mode port (0 idle,
1 calibrating, 2 receive, 3 other), which a mode read samples. -/
def Obligations.SampleWordsDecode : Prop :=
  (decodeCommand 0x010019DD1800 = .ok (.tune 433920000) ∧
    decodeCommand 0x02033689CAC0 = .ok (.cal 3 915000000) ∧
    decodeCommand 0x090A00000000 = .ok (.rdbuf 10) ∧
    decodeCommand 0x1100000000A5 = .ok (.crcupd 0xA5) ∧
    decodeCommand 0x010119DD1800 = .error .mustBeZero ∧
    decodeCommand 0x130000000000 = .error .reservedOp ∧
    decodeEvent 0x2A5 = .ok (.evByte 0xA5) ∧
    decodeEvent 0x1FF = .ok .evSfd ∧
    decodeEvent 0x0FF = .error .noEvent) ∧
  (∀ s : State,
    s.quiet.out.strobeBits = 0 ∧
    (s.strobe .idle).out.strobeBits = 1 ∧
    (s.strobe .rx).out.strobeBits = 2 ∧
    (s.strobe .cal).out.strobeBits = 3) ∧
  (∀ (e : Env) (rest : List (BitVec 2)),
    Env.mode { e with modes := 0 :: rest } = .idle ∧
    Env.mode { e with modes := 1 :: rest } = .cal ∧
    Env.mode { e with modes := 2 :: rest } = .rx ∧
    Env.mode { e with modes := 3 :: rest } = .other)

/-! ## The step -/

/-- 20_memory.md R50, R66, 60_exceptions.md R147: in the main context's turn, with no command in progress, a word on the
command port that decodes is taken off the port and runs; a command in progress takes its next micro-step, whatever is on
the command port. What the step adds around `exec`: the pulses of the last step end, the turn and the word are used up. -/
def Obligations.StepRunsTheDecodedCommand : Prop :=
  (∀ (s : State) (w : BitVec 48) (rest : List (BitVec 48)) (i : Instr),
    s.mainTurn = true → s.mseq.busy = false → s.env.cmds = w :: rest → decodeCommand w = .ok i →
    step s = exec i s.onTurn.takeCommand) ∧
  (∀ (s : State) (i : Instr), s.mainTurn = true → s.mseq.busy = true → decodeCommand s.mseq.word = .ok i →
    step s = exec i s.onTurn)

/-- 60_exceptions.md R145, R146: in the block's turn the pending event of highest priority (overflow, then frame-start, then
byte) has its latch cleared and its handler run, in one step, at the end of which no handler runs. -/
def Obligations.StepDispatchesTheHighestPendingEvent : Prop :=
  ∀ s : State, s.blockTurn = true → s.noPending = false →
    (∃ t, step s = .next t ∧ t.inIsr = false) ∧
    step s =
      if s.pendOvf then exec .evOvf { s.onTurn with pendOvf := false, inIsr := true }
      else if s.pendSfd then exec .evSfd { s.onTurn with pendSfd := false, inIsr := true }
      else exec (.evByte s.rxData) { s.onTurn with pendByte := false, inIsr := true }

/-- 60_exceptions.md R143, 30_encoding.md R75: the arrival of an event word sets the latch of its kind and nothing else; a
second byte event into a set latch leaves `pend_data` without a value; kind 0 changes nothing. -/
def Obligations.ArrivalLatchesTheEvent : Prop :=
  ∀ (s : State) (w : BitVec 10) (rest : List Turn), s.env.turns = .event w :: rest →
    (evKind w = 0 → step s = .next s.onTurn) ∧
    (evKind w = 1 → step s = .next { s.onTurn with pendSfd := true }) ∧
    (evKind w = 2 → step s = .next { s.onTurn with
      pendByte := true, pendData := if s.pendByte then none else some (evData w) }) ∧
    (evKind w = 3 → step s = .next { s.onTurn with pendOvf := true })

/-- 30_encoding.md R76: a command word that no row of the table selects is refused as reserved. -/
def Obligations.ReservedWordsAreRefused : Prop :=
  ∀ (s : State) (w : BitVec 48) (rest : List (BitVec 48)),
    s.mainTurn = true → s.mseq.busy = false → s.env.cmds = w :: rest →
    (∀ r ∈ commandRows, r.selects w = false) → step s = .refused .reserved

/-- 70_reset_and_hazards.md R168: with nothing pending, no command in progress and no word on the command port, the block
waits, and changes nothing. That such a turn is a step, which ends the pulses of the last step and uses up the turn, is the
model's choice (log 18). -/
def Obligations.BlockWaitsForACommand : Prop :=
  ∀ s : State, s.mainTurn = true → s.mseq.busy = false → s.env.cmds = [] → step s = .next s.onTurn

/-- 70_reset_and_hazards.md R166, 10_state.md R42: `rst` puts the control items at their reset values, whatever was in
progress, and leaves nothing stored; no pulse is issued. That the outside stays as it was (the words on the command port, and
the turns still to come) is the model's choice (log 21). What the unwritten data items then read as is the model's choice
(log 3) and is not stated here. -/
def Obligations.ResetRestoresTheControlState : Prop :=
  ∀ (s : State) (rest : List Turn), s.env.turns = .rst :: rest →
    ∃ t, step s = .next t ∧
      t.session = .idle ∧ t.frameReady = false ∧ t.error = false ∧ t.cursor = 0 ∧
      t.pendSfd = false ∧ t.pendByte = false ∧ t.pendOvf = false ∧ t.pendData = none ∧
      t.inIsr = false ∧ t.mseq.busy = false ∧ t.buf = [] ∧ t.tab = [] ∧
      t.out = Outputs.quiet ∧ t.cfg = s.cfg ∧ t.env.turns = rest ∧ t.env.cmds = s.env.cmds

/-! ## Invariants of the machine -/

/-- The reset state satisfies the invariant, for every admitted configuration and every outside. -/
def Obligations.ResetSatisfiesTheInvariant : Prop :=
  State.reset.Inv ∧ ∀ (c : Config) (e : Env) (n : Nat), c.wf = true → (State.resetWith c e n).Inv

/-- 42_frame.md R116 (a), (b), 10_state.md R29, R39, R40, 20_memory.md R46, R48: every step keeps the invariant: the cursor
in its range and below `N-1` in `RECEIVING`, the stores in canonical form within their bounds, no handler running between
steps, a busy sequencer at a micro-step of an admitted command; and no step changes the parameters (10_state.md R41). -/
def Obligations.EveryStepKeepsTheInvariant : Prop :=
  ∀ s t : State, s.Inv → step s = .next t → t.Inv ∧ t.cfg = s.cfg

/-- Derived from 60_exceptions.md R137 (every admitted command runs to its end) and R163 (the host presents only admitted
words): while the words still to come decode and have their operands in range, no step is refused and none faults, and the
words still to come stay so. A read of an item that nothing has written, which the last row of 30_encoding.md R74 refuses,
goes on by the model's choice (log 3), and is no exception here. -/
def Obligations.AdmittedHostIsNeverRefused : Prop :=
  ∀ s : State, s.Inv → s.HostAdmitted → ∃ t, step s = .next t ∧ t.HostAdmitted

/-- 60_exceptions.md R164: in a state that satisfies the invariant, with a command in progress, the main context's turn is a
micro-step that ends the command or leaves strictly fewer micro-steps to take; a turn that dispatches an event or takes
an arrival leaves the number as it was; and when a command is accepted and goes on, its first micro-step counts towards
the bound the rule gives it. -/
def Obligations.EveryCommandTerminatesWithinItsBound : Prop :=
  (∀ s : State, s.Inv → s.mainTurn = true → s.mseq.busy = true →
    ∃ t, step s = .next t ∧ (t.mseq.busy = true → t.microsLeft + 1 ≤ s.microsLeft)) ∧
  (∀ s t : State, s.mainTurn = false → s.env.turns.head? ≠ some .rst → step s = .next t →
    t.mseq = s.mseq ∧ t.microsLeft = s.microsLeft) ∧
  (∀ (s t : State) (w : BitVec 48) (rest : List (BitVec 48)) (i : Instr),
    s.Inv → s.mainTurn = true → s.mseq.busy = false → s.env.cmds = w :: rest → decodeCommand w = .ok i →
    step s = .next t → t.mseq.busy = true → t.microsLeft + 1 ≤ microBound s.cfg i)

/-- 10_state.md R23, R40, 20_memory.md R50, R66: in every step but a reset, `RSP` changes and `rsp_valid` pulses exactly where
the step ends a command. While a command is in progress its latched word stays, and the response comes in the step that ends
it. A ready block that takes a word latches it, and answers in this step or stays busy; in every other step of a ready block
(an arrival, an event, a turn with no word) the sequencer and `RSP` stay and nothing pulses. -/
def Obligations.ResponseComesOnlyWithTheLastMicroStep : Prop :=
  ∀ s t : State, s.env.turns.head? ≠ some .rst → step s = .next t →
    (s.mseq.busy = true →
      t.mseq.word = s.mseq.word ∧ t.out.rspValid = !t.mseq.busy ∧ (t.mseq.busy = true → t.rsp = s.rsp)) ∧
    (s.mseq.busy = false → ∀ (w : BitVec 48) (rest : List (BitVec 48)), s.mainTurn = true → s.env.cmds = w :: rest →
      t.mseq.word = w ∧ t.out.rspValid = !t.mseq.busy ∧ (t.mseq.busy = true → t.rsp = s.rsp)) ∧
    (s.mseq.busy = false → s.mainTurn = false ∨ s.env.cmds = [] →
      t.mseq = s.mseq ∧ t.rsp = s.rsp ∧ t.out.rspValid = false)

/-! ## The stores -/

/-- 20_memory.md R46, R47: a byte of the buffer reads back as it was written, every other index reads as before, the
canonical form is kept within the buffer's bounds, and the form determines the contents: two canonical buffers in which
every index holds the same are the same. -/
def Obligations.BufferReadsBackWhatWasWritten : Prop :=
  (∀ (s : State) (i : Nat) (v : Byte),
    (s.bufWrite i v).bufRead i = v ∧
    (∀ j, j ≠ i → (s.bufWrite i v).bufRead j = s.bufRead j) ∧
    (Memory.wf s.buf = true → i < frameLen → Memory.wf (s.bufWrite i v).buf = true)) ∧
  (∀ m n : Memory, Memory.wf m = true → Memory.wf n = true → (∀ i, Sparse.get? m i = Sparse.get? n i) → m = n)

/-- 20_memory.md R48: the same for the entries of the channel table: an entry reads back as it was written, every other entry
reads as before, the canonical form is kept within the table's bounds, and the form determines the contents. What an entry
never written reads as is the model's choice (log 3). -/
def Obligations.TableReadsBackWhatWasWritten : Prop :=
  (∀ (s : State) (ch : Nat) (e : Entry),
    (s.setEntry ch e).entry ch = e ∧
    (∀ k, k ≠ ch → (s.setEntry ch e).entry k = s.entry k) ∧
    (Table.wf s.cfg.numChannels s.tab = true → ch < s.cfg.numChannels →
      Table.wf s.cfg.numChannels (s.setEntry ch e).tab = true)) ∧
  (∀ (n : Nat) (a b : Table), Table.wf n a = true → Table.wf n b = true →
    (∀ ch, Sparse.get? a ch = Sparse.get? b ch) → a = b)

/-! ## The fixed-point conversion and the operand checks -/

/-- 40_synth.md R81, R82: `freq_word(hz)` is the floor of R81's quotient, which is the natural number nearest to
`hz * 65536 / REFERENCE_HZ`, a tie going up: the two inequalities have no other solution. With the examples of R81. -/
def Obligations.FreqWordRoundsToNearestTieUp : Prop :=
  (∀ (c : Config) (hz w : Nat), 0 < c.referenceHz →
    freqWord c hz = (2 * hz * 65536 + c.referenceHz) / (2 * c.referenceHz) ∧
    (freqWord c hz = w ↔
      2 * c.referenceHz * w ≤ 2 * (hz * 65536) + c.referenceHz ∧
      2 * (hz * 65536) + c.referenceHz < 2 * c.referenceHz * (w + 1))) ∧
  (∀ c : Config, c.referenceHz = 26000000 →
    freqWord c 433920000 = 1093745 ∧ freqWord c 915000000 = 2306363 ∧ freqWord c 26000000 = 65536 ∧ freqWord c 0 = 0) ∧
  (∀ c : Config, c.referenceHz = 27000000 → freqWord c 433920000 = 1053236)

/-- 40_synth.md R83, 00_scope.md R7: with `REFERENCE_HZ ≥ 16 777 217` no 32-bit frequency overflows the 24-bit word; with
16 777 216 exactly the frequencies from 4 294 967 168 up do. -/
def Obligations.OverflowNeedsALowReference : Prop :=
  (∀ (c : Config) (hz : Word32), 16777217 ≤ c.referenceHz → freqWord c hz.toNat < 2 ^ 24) ∧
  (∀ (c : Config) (hz : Word32), c.referenceHz = 16777216 →
    (2 ^ 24 ≤ freqWord c hz.toNat ↔ 4294967168 ≤ hz.toNat))

/-- 00_scope.md R7, 92_eei_decisions.md P7: in an admitted configuration every frequency of the valid band has a word of less
than 24 bits, so `TUNE` of it is admitted. -/
def Obligations.BandFrequenciesAreAdmitted : Prop :=
  ∀ (c : Config) (hz : Word32), c.wf = true → c.bandLoHz ≤ hz.toNat → hz.toNat ≤ c.bandHiHz →
    (Instr.tune hz).wellFormed c = true

/-- 30_encoding.md R74 (its first three rows), 40_synth.md R83: a ready block refuses an operand out of range, by the reason
the rule names. That `CAL` with both operands out of range is refused for the channel is read from the order of
41_caltable.md R94 (log 17, DEDUCED). -/
def Obligations.OperandsOutOfRangeAreRefused : Prop :=
  ∀ s : State, s.mseq.busy = false →
    (∀ i : Byte, frameLen ≤ i.toNat → exec (.rdbuf i) s = .refused .index) ∧
    (∀ hz : Word32, 2 ^ 24 ≤ freqWord s.cfg hz.toNat → exec (.tune hz) s = .refused .overflow) ∧
    (∀ ch : Byte, s.cfg.numChannels ≤ ch.toNat →
      (∀ hz : Word32, exec (.cal ch hz) s = .refused .channel) ∧
      exec (.tunech ch) s = .refused .channel ∧
      exec (.rdchf ch) s = .refused .channel ∧
      exec (.rdchs ch) s = .refused .channel ∧
      exec (.rdchc ch) s = .refused .channel ∧
      exec (.rdchr ch) s = .refused .channel) ∧
    (∀ (ch : Byte) (hz : Word32), ch.toNat < s.cfg.numChannels → 2 ^ 24 ≤ freqWord s.cfg hz.toNat →
      exec (.cal ch hz) s = .refused .overflow)

/-- 30_encoding.md R74 (its first three rows), 00_scope.md R17: a ready block gives a next state to an operation exactly when
its operands are in range. The fourth row, `refuse(unwritten)`, has no part in it by the model's choice (log 3), which takes
the `any value` of 93_implementation_defined.md U6. -/
def Obligations.ReadyBlockRunsExactlyTheAdmitted : Prop :=
  ∀ (i : Instr) (s : State), s.mseq.busy = false →
    ((∃ t, exec i s = .next t) ↔ i.wellFormed s.cfg = true)

/-! ## TUNE and RDSYN (spec/40_synth.md) -/

/-- R87 T1 to T4, R84, R86: the micro-steps of `TUNE hz` up to the synthesizer write, each with all it changes. -/
def Obligations.TuneFirstMicroSteps : Prop :=
  ∀ (hz : Word32) (s : State),
    (s.mseq.busy = false → freqWord s.cfg hz.toNat < 2 ^ 24 →
      exec (.tune hz) s = .next { s with
        session := .idle
        out := { s.out with strobe := some .idle }
        mseq := ⟨true, 0x01, .t2Poll, hz, 0, 0, 0⟩ }) ∧
    (s.standsAt (cmdWord 0x01 0 hz) .t2Poll = true →
      exec (.tune hz) s = .next { s with
        env := s.env.afterMode
        mseq := if s.env.mode = .idle ∨ s.mseq.n = s.cfg.pollMaxIdle then { s.mseq with step := .t3, n := 0 }
          else { s.mseq with step := .t2Tick } }) ∧
    (s.standsAt (cmdWord 0x01 0 hz) .t2Tick = true →
      exec (.tune hz) s = .next { s with mseq := { s.mseq with step := .t2Poll, n := s.mseq.n + 1 } }) ∧
    (s.standsAt (cmdWord 0x01 0 hz) .t3 = true →
      exec (.tune hz) s = .next { s with
        pendSfd := false, pendByte := false, pendOvf := false
        mseq := { s.mseq with step := .t4, n := 0 } }) ∧
    (s.standsAt (cmdWord 0x01 0 hz) .t4 = true →
      exec (.tune hz) s = .next { s with
        syn2 := (BitVec.ofNat 24 (freqWord s.cfg hz.toNat)).extractLsb' 16 8
        syn1 := (BitVec.ofNat 24 (freqWord s.cfg hz.toNat)).extractLsb' 8 8
        syn0 := (BitVec.ofNat 24 (freqWord s.cfg hz.toNat)).extractLsb' 0 8
        mseq := { s.mseq with step := .t5, n := 0 } })

/-- R87 T5 to T8, R84, R90: the remaining micro-steps of `TUNE hz`, each with all it changes. -/
def Obligations.TuneLastMicroSteps : Prop :=
  ∀ (hz : Word32) (s : State),
    (s.standsAt (cmdWord 0x01 0 hz) .t5 = true →
      exec (.tune hz) s = .next { s with
        session := .calibrating
        out := { s.out with strobe := some .rx }
        mseq := { s.mseq with step := .t6, n := 0 } }) ∧
    (s.standsAt (cmdWord 0x01 0 hz) .t6 = true →
      exec (.tune hz) s = .next { s with
        frameReady := false, error := false
        mseq := { s.mseq with step := .t7Poll, n := 0 } }) ∧
    (s.standsAt (cmdWord 0x01 0 hz) .t7Poll = true →
      s.env.mode = .rx ∨ s.mseq.n = s.cfg.pollMaxRx →
      exec (.tune hz) s = .next { s with
        env := s.env.afterMode
        session := if s.session = .calibrating then .listening else s.session
        mseq := { s.mseq with step := .t8, n := 0 } }) ∧
    (s.standsAt (cmdWord 0x01 0 hz) .t7Poll = true →
      s.env.mode ≠ .rx → s.mseq.n ≠ s.cfg.pollMaxRx →
      exec (.tune hz) s = .next { s with
        env := s.env.afterMode
        mseq := { s.mseq with step := .t7Tick } }) ∧
    (s.standsAt (cmdWord 0x01 0 hz) .t7Tick = true →
      exec (.tune hz) s = .next { s with mseq := { s.mseq with step := .t7Poll, n := s.mseq.n + 1 } }) ∧
    (s.standsAt (cmdWord 0x01 0 hz) .t8 = true →
      exec (.tune hz) s = .next { s with
        rsp := hz
        out := { s.out with rspValid := true }
        mseq := { s.mseq with busy := false } })

/-- R87, R89, R139, R164: with no event arriving, `TUNE hz` of an admitted frequency ends within its bound, whatever the
radio answers and so whether or not its waits time out, and always in the same way: the synthesizer word written,
`LISTENING`, both flags clear, `RSP = hz`, and nothing else written. -/
def Obligations.TuneEndsListening : Prop :=
  ∀ (s : State) (hz : Word32), s.atRest = true → (Instr.tune hz).wellFormed s.cfg = true →
    ∃ t, settle (8 + 2 * s.cfg.pollMaxIdle + 2 * s.cfg.pollMaxRx) (s.offer (encode (.tune hz))) = .next t ∧
      t.atRest = true ∧
      t.syn.toNat = freqWord s.cfg hz.toNat ∧ t.session = .listening ∧ t.frameReady = false ∧ t.error = false ∧
      t.rsp = hz ∧ t.out.rspValid = true ∧
      t.cursor = s.cursor ∧ t.buf = s.buf ∧ t.tab = s.tab ∧ t.crc = s.crc ∧ t.pendData = s.pendData ∧
      t.env.rssis = s.env.rssis ∧ t.env.foes = s.env.foes ∧ t.env.cals = s.env.cals ∧ t.cfg = s.cfg

/-- R92: under every interleaving without a reset and every draw, an admitted `TUNE hz` answers `hz`: the main context's
turn accepts it, and when the block has then been busy with it for `k` steps and the next step ends it, `RSP = hz`. -/
def Obligations.TuneAnswersItsFrequency : Prop :=
  ∀ (s : State) (hz : Word32), s.mainTurn = true → s.mseq.busy = false →
    s.env.cmds.head? = some (cmdWord 0x01 0 hz) → (Instr.tune hz).wellFormed s.cfg = true → .rst ∉ s.env.turns →
    (∃ u, step s = .next u ∧ u.mseq.busy = true ∧ u.mseq.word = cmdWord 0x01 0 hz) ∧
    ∀ (k : Nat) (t : State), (∀ j, 1 ≤ j → j ≤ k → ∃ u, core.run j s = .next u ∧ u.mseq.busy = true) →
      core.run (k + 1) s = .next t → t.mseq.busy = false → t.rsp = hz

/-- R88 (e), 60_exceptions.md R152: `IfClr()` at `TUNE`'s T3 sets the three latches to 0 and does not touch `pend_data`; but no
latch is set where a step runs a micro-step of a command (it moves the sequencer, or answers), a reset apart; so a step of
the machine from T3 on to T4 finds every latch at 0 and changes nothing but the sequencer; and the main context's turn at T3
is such a step. -/
def Obligations.IfClrFindsEveryLatchClear : Prop :=
  (∀ (s : State) (hz : Word32), s.standsAt (cmdWord 0x01 0 hz) .t3 = true →
    exec (.tune hz) s = .next { s with
      pendSfd := false, pendByte := false, pendOvf := false
      mseq := { s.mseq with step := .t4, n := 0 } }) ∧
  (∀ s t : State, s.env.turns.head? ≠ some .rst → step s = .next t → t.mseq ≠ s.mseq ∨ t.out.rspValid = true →
    s.pendSfd = false ∧ s.pendByte = false ∧ s.pendOvf = false) ∧
  (∀ (s t : State) (hz : Word32), s.standsAt (cmdWord 0x01 0 hz) .t3 = true → step s = .next t →
    t.standsAt (cmdWord 0x01 0 hz) .t4 = true →
    s.pendSfd = false ∧ s.pendByte = false ∧ s.pendOvf = false ∧
    t = { s.onTurn with mseq := { s.mseq with step := .t4, n := 0 } }) ∧
  (∀ (s : State) (hz : Word32), s.mainTurn = true → s.standsAt (cmdWord 0x01 0 hz) .t3 = true →
    ∃ t, step s = .next t ∧ t.standsAt (cmdWord 0x01 0 hz) .t4 = true)

/-- R88 (b), 42_frame.md R114: `TUNE`'s T1 abandons a reception, with the cursor and the stored bytes as they are, and the
next byte event is dropped; in `IDLE`, `CALIBRATING` and `LISTENING` a byte event stores nothing, moves nothing and reads
nothing from the radio; and from any session but `RECEIVING` no step but a reset writes the buffer, and none but the dispatch
of a frame-start leads to `RECEIVING`, so that from T1 on every byte is dropped until the next frame-start. -/
def Obligations.RetuneDropsTheRestOfTheFrame : Prop :=
  (∀ (s : State) (hz : Word32) (b : Byte), s.mseq.busy = false → (Instr.tune hz).wellFormed s.cfg = true →
    ∃ t, exec (.tune hz) s = .next t ∧ t.session = .idle ∧ t.cursor = s.cursor ∧ t.buf = s.buf ∧
      exec (.evByte b) t = .next { t with inIsr := false }) ∧
  (∀ (s : State) (b : Byte), s.session = .idle ∨ s.session = .calibrating ∨ s.session = .listening →
    exec (.evByte b) s = .next { s with inIsr := false }) ∧
  (∀ s t : State, s.session ≠ .receiving → s.env.turns.head? ≠ some .rst → step s = .next t →
    t.buf = s.buf ∧ (t.session = .receiving → s.nextOp = some .evSfd))

/-- R91: `RDSYN` answers the 24-bit synthesizer word, zero-extended, and changes nothing else. That it answers where `SYN*`
have not been written since reset, which R91 refuses, is the model's choice (log 3). -/
def Obligations.RdsynAnswersTheSynthesizerWord : Prop :=
  ∀ s : State, s.mseq.busy = false →
    exec .rdsyn s = .next (s.responded 0x0B0000000000 ((0 : BitVec 8) ++ s.syn2 ++ s.syn1 ++ s.syn0))

/-! ## The channel calibration table (spec/41_caltable.md) -/

/-- R94 C1 to C4: the micro-steps of `CAL ch, hz` up to the settle, each with all it changes. -/
def Obligations.CalFirstMicroSteps : Prop :=
  ∀ (ch : Byte) (hz : Word32) (s : State),
    (s.mseq.busy = false → ch.toNat < s.cfg.numChannels → freqWord s.cfg hz.toNat < 2 ^ 24 →
      exec (.cal ch hz) s = .next { s with
        syn2 := (BitVec.ofNat 24 (freqWord s.cfg hz.toNat)).extractLsb' 16 8
        syn1 := (BitVec.ofNat 24 (freqWord s.cfg hz.toNat)).extractLsb' 8 8
        syn0 := (BitVec.ofNat 24 (freqWord s.cfg hz.toNat)).extractLsb' 0 8
        mseq := ⟨true, 0x02, .c2, hz, ch, 0, 0⟩ }) ∧
    (s.standsAt (cmdWord 0x02 ch hz) .c2 = true →
      exec (.cal ch hz) s = .next { s with
        session := .calibrating
        out := { s.out with strobe := some .cal }
        mseq := { s.mseq with step := .c3, n := 0 } }) ∧
    (s.standsAt (cmdWord 0x02 ch hz) .c3 = true →
      exec (.cal ch hz) s = .next { s with
        session := .calibrating
        out := { s.out with strobe := some .rx }
        mseq := { s.mseq with step := .c4First, n := 0 } }) ∧
    (s.standsAt (cmdWord 0x02 ch hz) .c4First = true →
      exec (.cal ch hz) s = .next { s with mseq := { s.mseq with step := .c4Second, n := s.mseq.n + 1 } }) ∧
    (s.standsAt (cmdWord 0x02 ch hz) .c4Second = true →
      exec (.cal ch hz) s = .next { s with
        session := if s.session = .calibrating then .listening else s.session
        mseq := { s.mseq with step := .c5, n := 0 } })

/-- R94 C5 to C8: the snapshot, the sample, idle and the response of `CAL ch, hz`, each with all it changes; every other
entry of the table reads as before. What a field never written holds meanwhile is the model's choice (log 3). -/
def Obligations.CalLastMicroSteps : Prop :=
  ∀ (ch : Byte) (hz : Word32) (s : State),
    (s.standsAt (cmdWord 0x02 ch hz) .c5 = true →
      ∃ t, exec (.cal ch hz) s = .next t ∧
        t = { s with tab := t.tab, env := s.env.afterCal, mseq := { s.mseq with step := .c6, n := 0 } } ∧
        t.entry ch.toNat = { s.entry ch.toNat with
          freq := hz, syn2 := s.syn2, syn1 := s.syn1, syn0 := s.syn0
          cal3 := s.env.cal.extractLsb' 16 8, cal2 := s.env.cal.extractLsb' 8 8, cal1 := s.env.cal.extractLsb' 0 8 } ∧
        ∀ k, k ≠ ch.toNat → t.entry k = s.entry k) ∧
    (s.standsAt (cmdWord 0x02 ch hz) .c6 = true →
      ∃ t, exec (.cal ch hz) s = .next t ∧
        t = { s with tab := t.tab, env := s.env.afterRssi, mseq := { s.mseq with step := .c7, n := 0 } } ∧
        t.entry ch.toNat = { s.entry ch.toNat with current := s.env.rssi ^^^ 0x80, max := 0 } ∧
        ∀ k, k ≠ ch.toNat → t.entry k = s.entry k) ∧
    (s.standsAt (cmdWord 0x02 ch hz) .c7 = true →
      exec (.cal ch hz) s = .next { s with
        session := .idle
        out := { s.out with strobe := some .idle }
        mseq := { s.mseq with step := .c8, n := 0 } }) ∧
    (s.standsAt (cmdWord 0x02 ch hz) .c8 = true →
      exec (.cal ch hz) s = .next { s with
        rsp := hz
        out := { s.out with rspValid := true }
        mseq := { s.mseq with busy := false } })

/-- R94, R95 (c), (e), R164: with no event arriving, `CAL ch, hz` takes exactly nine steps and leaves all nine fields of the
entry written, whatever they held, with the maximum 0; `IDLE`; `RSP = hz`; every other entry, the flags, the cursor, the
buffer and the CRC as they were. -/
def Obligations.CalWritesOneWholeEntry : Prop :=
  ∀ (s : State) (ch : Byte) (hz : Word32), s.atRest = true → (Instr.cal ch hz).wellFormed s.cfg = true →
    (∃ u, core.run 8 (s.offer (encode (.cal ch hz))) = .next u ∧ u.mseq.busy = true) ∧
    ∃ t, core.run 9 (s.offer (encode (.cal ch hz))) = .next t ∧ t.atRest = true ∧
      t.syn.toNat = freqWord s.cfg hz.toNat ∧ t.session = .idle ∧ t.rsp = hz ∧
      t.entry ch.toNat =
        { freq := hz, syn2 := t.syn2, syn1 := t.syn1, syn0 := t.syn0
          cal3 := s.env.cal.extractLsb' 16 8, cal2 := s.env.cal.extractLsb' 8 8, cal1 := s.env.cal.extractLsb' 0 8
          current := normRssi s.env.afterCal.rssi, max := 0 } ∧
      (∀ k, k ≠ ch.toNat → t.entry k = s.entry k) ∧
      t.frameReady = s.frameReady ∧ t.error = s.error ∧ t.cursor = s.cursor ∧ t.buf = s.buf ∧ t.crc = s.crc

/-- R96: `TUNECH ch` writes the stored synthesizer bytes, presents the stored calibration bytes and answers 0, in three
micro-steps, with no strobe; each with all it changes. That it runs on an entry `CAL` has not written, which R96 refuses, is
the model's choice (log 3). -/
def Obligations.TunechMicroSteps : Prop :=
  ∀ (ch : Byte) (s : State),
    (s.mseq.busy = false → ch.toNat < s.cfg.numChannels →
      exec (.tunech ch) s = .next { s with
        syn2 := (s.entry ch.toNat).syn2, syn1 := (s.entry ch.toNat).syn1, syn0 := (s.entry ch.toNat).syn0
        mseq := ⟨true, 0x03, .u2, 0, ch, 0, 0⟩ }) ∧
    (s.standsAt (cmdWord 0x03 ch 0) .u2 = true →
      exec (.tunech ch) s = .next { s with
        out := { s.out with
          calOut := some ((s.entry ch.toNat).cal3 ++ (s.entry ch.toNat).cal2 ++ (s.entry ch.toNat).cal1) }
        mseq := { s.mseq with step := .u3, n := 0 } }) ∧
    (s.standsAt (cmdWord 0x03 ch 0) .u3 = true →
      exec (.tunech ch) s = .next { s with
        rsp := 0
        out := { s.out with rspValid := true }
        mseq := { s.mseq with busy := false } })

/-- R96, R164: with no event arriving, `TUNECH ch` takes exactly three steps and changes `SYN2`, `SYN1`, `SYN0` and `RSP`
only (and the sequencer and the pulses). That it runs on an entry `CAL` has not written, which R96 refuses, is the model's
choice (log 3). -/
def Obligations.TunechRewritesTheStoredBytes : Prop :=
  ∀ (s : State) (ch : Byte), s.atRest = true → (Instr.tunech ch).wellFormed s.cfg = true →
    (∃ u, core.run 2 (s.offer (encode (.tunech ch))) = .next u ∧ u.mseq.busy = true) ∧
    ∃ t, core.run 3 (s.offer (encode (.tunech ch))) = .next t ∧ t.atRest = true ∧
      t = { s with
        syn2 := (s.entry ch.toNat).syn2, syn1 := (s.entry ch.toNat).syn1, syn0 := (s.entry ch.toNat).syn0
        rsp := 0, out := t.out, mseq := t.mseq } ∧
      t.out = ⟨none, none, false, true⟩

/-- R97, R98: the micro-steps of `SWEEP` at channel `mseq.chan`, each with all it changes: S0 (two), S1, the dwell S2, S4, the
response, and the acceptance with S0 of channel 0. That it runs over entries `CAL` has not written, which R97 refuses, and
that the channel has a counter of its own, are the model's choices (log 3, log 5). -/
def Obligations.SweepMicroSteps : Prop :=
  ∀ s : State,
    (s.mseq.busy = false → 0 < s.cfg.numChannels →
      exec .sweep s = .next { s with
        syn2 := (s.entry 0).syn2, syn1 := (s.entry 0).syn1, syn0 := (s.entry 0).syn0
        mseq := ⟨true, 0x04, .s0Cal, 0, 0, 0, 0⟩ }) ∧
    (s.standsAt 0x040000000000 .s0Syn = true →
      exec .sweep s = .next { s with
        syn2 := (s.entry s.mseq.chan).syn2, syn1 := (s.entry s.mseq.chan).syn1, syn0 := (s.entry s.mseq.chan).syn0
        mseq := { s.mseq with step := .s0Cal, n := 0 } }) ∧
    (s.standsAt 0x040000000000 .s0Cal = true →
      exec .sweep s = .next { s with
        out := { s.out with
          calOut := some ((s.entry s.mseq.chan).cal3 ++ (s.entry s.mseq.chan).cal2 ++ (s.entry s.mseq.chan).cal1) }
        mseq := { s.mseq with step := .s1, n := 0 } }) ∧
    (s.standsAt 0x040000000000 .s1 = true →
      exec .sweep s = .next { s with
        session := .calibrating
        out := { s.out with strobe := some .rx }
        mseq := { s.mseq with step := .s2, n := 0 } }) ∧
    (s.standsAt 0x040000000000 .s2 = true → s.mseq.n + 1 < s.cfg.dwellIter →
      exec .sweep s = .next { s with mseq := { s.mseq with n := s.mseq.n + 1 } }) ∧
    (s.standsAt 0x040000000000 .s2 = true → s.mseq.n + 1 = s.cfg.dwellIter →
      exec .sweep s = .next { s with
        session := if s.session = .calibrating then .listening else s.session
        mseq := { s.mseq with step := .s3, n := 0 } }) ∧
    (s.standsAt 0x040000000000 .s4 = true →
      exec .sweep s = .next { s with
        session := .idle
        out := { s.out with strobe := some .idle }
        mseq := { s.mseq with
          n := 0, chan := s.mseq.chan + 1
          step := if s.mseq.chan + 1 < s.cfg.numChannels then .s0Syn else .sEnd } }) ∧
    (s.standsAt 0x040000000000 .sEnd = true →
      exec .sweep s = .next { s with
        rsp := 0
        out := { s.out with rspValid := true }
        mseq := { s.mseq with busy := false } })

/-- R98 S3, R99 (b): the sample of `SWEEP`: the current value of the channel is overwritten with the normalised sample, the
maximum becomes the larger of the two as unsigned numbers, and no other entry and no other state changes. That an entry never
written has a maximum to compare with (R43 and R97 refuse it), and that `mseq.chan` is the channel, are the model's choices
(log 3, log 5). -/
def Obligations.SweepSamplesOneChannel : Prop :=
  ∀ s : State, s.standsAt 0x040000000000 .s3 = true →
    ∃ t, exec .sweep s = .next t ∧
      t = { s with tab := t.tab, env := s.env.afterRssi, mseq := { s.mseq with step := .s4, n := 0 } } ∧
      (t.entry s.mseq.chan).current = s.env.rssi ^^^ 0x80 ∧
      (t.entry s.mseq.chan).max.toNat = Nat.max (s.entry s.mseq.chan).max.toNat (s.env.rssi ^^^ 0x80).toNat ∧
      t.entry s.mseq.chan =
        { s.entry s.mseq.chan with current := (t.entry s.mseq.chan).current, max := (t.entry s.mseq.chan).max } ∧
      ∀ k, k ≠ s.mseq.chan → t.entry k = s.entry k

/-- R97 to R99, R164: with no event arriving, `SWEEP` takes exactly `NUM_CHANNELS (5 + DWELL_ITER) + 1` steps, visits every
channel once, in index order (channel `ch` takes the `ch`-th sample), and leaves `IDLE`, the last channel's synthesizer
bytes and `RSP = 0`; the other fields of the entries, the flags, the cursor, the buffer and the CRC are as they were. That it
runs over entries `CAL` has not written, which R97 refuses, and that a counter of its own counts the channels, are the
model's choices (log 3, log 5). -/
def Obligations.SweepVisitsEveryChannelOnce : Prop :=
  ∀ s : State, s.atRest = true → s.cfg.wf = true →
    (∃ u, core.run (s.cfg.numChannels * (5 + s.cfg.dwellIter)) (s.offer (encode .sweep)) = .next u ∧
      u.mseq.busy = true) ∧
    ∃ t, core.run (s.cfg.numChannels * (5 + s.cfg.dwellIter) + 1) (s.offer (encode .sweep)) = .next t ∧
      t.atRest = true ∧ t.session = .idle ∧ t.rsp = 0 ∧
      (∀ ch, ch < s.cfg.numChannels →
        t.entry ch = { s.entry ch with
          current := normRssi (Env.peek (s.env.rssis.drop ch) (s.env.drawn + ch))
          max := maxU8 (s.entry ch).max (normRssi (Env.peek (s.env.rssis.drop ch) (s.env.drawn + ch))) }) ∧
      t.syn = (s.entry (s.cfg.numChannels - 1)).syn ∧
      t.frameReady = s.frameReady ∧ t.error = s.error ∧ t.cursor = s.cursor ∧ t.buf = s.buf ∧ t.crc = s.crc

/-- R99 (a), R33 of 10_state.md, 90_conflicts.md C4: under every interleaving, no step but a reset and `CAL ch`'s C6 lowers
the maximum of channel `ch`. What the maximum of an entry never written is, is the model's choice (log 3). -/
def Obligations.OnlyCalLowersTheMaximum : Prop :=
  ∀ (s t : State) (ch : Nat), step s = .next t → s.env.turns.head? ≠ some .rst →
    ¬ (s.mseq.busy = true ∧ s.mseq.op = 0x02 ∧ s.mseq.step = .c6 ∧ s.mseq.ch.toNat = ch) →
    (s.entry ch).max.toNat ≤ (t.entry ch).max.toNat

/-- R100 to R103: the four reads of the table answer the fields of the entry, zero-extended, most significant byte first
(`max` above `current`), and change nothing else. That they answer for an entry `CAL` has not written, which these rules
refuse, is the model's choice (log 3). -/
def Obligations.TableReadsAnswerTheEntry : Prop :=
  ∀ (s : State) (ch : Byte), s.mseq.busy = false → ch.toNat < s.cfg.numChannels →
    exec (.rdchf ch) s = .next (s.responded (cmdWord 0x0C ch 0) (s.entry ch.toNat).freq) ∧
    exec (.rdchs ch) s = .next (s.responded (cmdWord 0x0D ch 0)
      ((0 : BitVec 8) ++ (s.entry ch.toNat).syn2 ++ (s.entry ch.toNat).syn1 ++ (s.entry ch.toNat).syn0)) ∧
    exec (.rdchc ch) s = .next (s.responded (cmdWord 0x0E ch 0)
      ((0 : BitVec 8) ++ (s.entry ch.toNat).cal3 ++ (s.entry ch.toNat).cal2 ++ (s.entry ch.toNat).cal1)) ∧
    exec (.rdchr ch) s = .next (s.responded (cmdWord 0x0F ch 0)
      ((0 : BitVec 16) ++ (s.entry ch.toNat).max ++ (s.entry ch.toNat).current))

/-- R93: normalisation inverts the sign bit; as numbers the result is the signed value plus 128, so the order of the signed
samples is the order of the unsigned results; it is its own inverse. -/
def Obligations.NormalisationAddsOneHundredTwentyEight : Prop :=
  (∀ r : Byte, normRssi r = r ^^^ 0x80 ∧ ((normRssi r).toNat : Int) = r.toInt + 128 ∧ normRssi (normRssi r) = r) ∧
  (∀ r q : Byte, r.toInt < q.toInt ↔ (normRssi r).toNat < (normRssi q).toNat)

/-! ## Frame acquisition (spec/42_frame.md) -/

/-- R107, R108: bit `i` of `rev8(b)` is bit `7-i` of `b`; it is its own inverse; its fixed points are the sixteen
palindromes; it is a bijection. The three masked swaps of R107 are its definition in the model. -/
def Obligations.RevEightReversesTheBits : Prop :=
  (∀ b : Byte, rev8 b = swapBits (swapPairs (swapNibbles b))) ∧
  Function.Bijective rev8 ∧
  (∀ (b : Byte) (i : Nat), i < 8 → (rev8 b).getLsbD i = b.getLsbD (7 - i)) ∧
  (∀ b : Byte, rev8 (rev8 b) = b) ∧
  (∀ b : Byte, rev8 b = b ↔ b ∈ ([0x00, 0x18, 0x24, 0x3C, 0x42, 0x5A, 0x66, 0x7E,
    0x81, 0x99, 0xA5, 0xBD, 0xC3, 0xDB, 0xE7, 0xFF] : List Byte))

/-- R110: the frame-start handler, in every state: cursor 0, `RECEIVING`, and nothing else (the handler's end). -/
def Obligations.FrameStartRestartsTheReception : Prop :=
  ∀ s : State, exec .evSfd s = .next { s with cursor := 0, session := .receiving, inIsr := false }

/-- R111: a byte event in `RECEIVING` with the cursor below 9 is read and stored at the cursor, bit-reversed for the first
eight indices and as it came at index 8; the cursor goes up by one; every other byte of the buffer reads as before and
nothing else changes. -/
def Obligations.ByteIsStoredAtTheCursor : Prop :=
  ∀ (s : State) (b : Byte), s.session = .receiving → s.cursor.toNat < frameLen - 2 →
    ∃ t, exec (.evByte b) s = .next t ∧
      t = { s with
        buf := t.buf, cursor := t.cursor, inIsr := false
        out := { s.out with rxRd := true }
        env := if s.pendData = none then s.env.afterRx else s.env } ∧
      t.cursor.toNat = s.cursor.toNat + 1 ∧
      t.bufRead s.cursor.toNat = (if s.cursor.toNat < dataBytes then rev8 b else b) ∧
      ∀ j, j ≠ s.cursor.toNat → t.bufRead j = s.bufRead j

/-- R111, R112, R127: the byte event that brings the cursor to `N-1` stores the link-quality byte and completes the frame in
the same handler: idle strobed; after the bounded polls index 8 has its top bit inverted, index 9 the byte with bit 7
cleared, index 10 the offset sample; `FRAME_READY` with the flag; cursor 10; every other byte of the buffer reads as before
and nothing else changes. -/
def Obligations.TenthByteCompletesTheFrame : Prop :=
  ∀ (s : State) (b : Byte), s.session = .receiving → s.cursor.toNat = frameLen - 2 →
    ∃ t e, exec (.evByte b) s = .next t ∧
      e = (if s.pendData = none then s.env.afterRx else s.env).pollIsr .idle s.cfg.pollMaxIsr ∧
      t = { s with
        buf := t.buf, cursor := 10, session := .frameReady, frameReady := true, inIsr := false
        out := { s.out with rxRd := true, strobe := some .idle }
        env := e.afterFoe } ∧
      t.bufRead idxRssi = s.bufRead idxRssi ^^^ 0x80 ∧
      t.bufRead idxLqi = b &&& 0x7F ∧
      t.bufRead idxFoe = e.foe ∧
      ∀ j, j ≠ idxRssi → j ≠ idxLqi → j ≠ idxFoe → t.bufRead j = s.bufRead j

/-- R114: a byte event outside `RECEIVING`, or with the cursor at or past `N-1`, changes nothing: no read of the data port, no
buffer write, no cursor change, no flag change. -/
def Obligations.ByteIsDroppedOutsideAReception : Prop :=
  ∀ (s : State) (b : Byte), s.session ≠ .receiving ∨ frameLen - 1 ≤ s.cursor.toNat →
    exec (.evByte b) s = .next { s with inIsr := false }

/-- R113: the overflow handler, in every state: idle strobed, the bounded polls, cursor 0, `error` set, `OVERFLOW_ERROR`; the
buffer and `frame_ready` are as they were and nothing else changes. -/
def Obligations.OverflowAbortsTheReception : Prop :=
  ∀ s : State, exec .evOvf s = .next { s with
    cursor := 0, error := true, session := .overflowError, inIsr := false
    out := { s.out with strobe := some .idle }
    env := s.env.pollIsr .idle s.cfg.pollMaxIsr }

/-- 40_synth.md R85: the bounded wait of the interrupt context takes at least one and at most `limit + 1` polls, stops at
the first that shows the wanted mode, and consumes nothing but the polls' draws. -/
def Obligations.InterruptWaitPollsAtMostItsLimitAndOne : Prop :=
  ∀ (m : RMode) (limit : Nat) (e : Env),
    ∃ k, 1 ≤ k ∧ k ≤ limit + 1 ∧
      e.pollIsr m limit = { e with modes := e.modes.drop k, drawn := e.drawn + k } ∧
      (∀ j, j + 1 < k → RMode.ofBits (Env.peek (e.modes.drop j) (e.drawn + j)) ≠ m) ∧
      (k ≤ limit → RMode.ofBits (Env.peek (e.modes.drop (k - 1)) (e.drawn + (k - 1))) = m)

/-- R128: from any state at rest, a frame-start, eight data bytes and two status bytes, each event dispatched before the next
arrives, give the frame image: eight bytes bit-reversed, the ninth with its top bit flipped, the tenth with its top bit
cleared, the offset sample; `FRAME_READY`, the flag, cursor 10; and the flag has not moved before the last event. -/
def Obligations.FrameIsAssembledCompletely : Prop :=
  ∀ (s : State) (raw : List Byte) (rssi lqi : Byte), s.atRest = true → raw.length = dataBytes →
    (∃ t, runListing 2 (frameOps (raw ++ [rssi, lqi])) s = .next t ∧
      t.bufHolds (frameImage raw rssi lqi (s.env.pollIsr .idle s.cfg.pollMaxIsr).foe) ∧
      t.session = .frameReady ∧ t.frameReady = true ∧ t.cursor = 10 ∧ t.error = s.error ∧ t.atRest = true) ∧
    (∀ n, n ≤ 10 → ∃ u, runListing 2 ((frameOps (raw ++ [rssi, lqi])).take n) s = .next u ∧
      u.frameReady = s.frameReady)

/-- R117: after a completed frame (or in any session but `RECEIVING`) any number of further byte events leaves the buffer, the
cursor, the session and the flags as they are. -/
def Obligations.FurtherBytesChangeNothing : Prop :=
  ∀ (s : State) (extra : List Byte), s.atRest = true → s.session ≠ .receiving →
    ∃ t, runListing 2 (extra.map .evByte) s = .next t ∧
      t.buf = s.buf ∧ t.cursor = s.cursor ∧ t.session = s.session ∧
      t.frameReady = s.frameReady ∧ t.error = s.error ∧ t.atRest = true

/-- R116 (d), R126: under every interleaving, while a reception is in progress the buffer holds the image of exactly the raw
bytes read since the frame-start, and the step that completes it leaves the frame image of the ten raw bytes. `raw` is
the history; a frame-start empties it and a byte dispatched in `RECEIVING` extends it. The offset byte is the draw of this
`Complete()`: the sample after the data port's read and the bounded polls. -/
def Obligations.ReceptionHoldsTheBytesReadSinceFrameStart : Prop :=
  ∀ (s t : State) (raw : List Byte), s.Inv → (s.session = .receiving → s.Receiving raw) → step s = .next t →
    (t.session = .receiving → t.Receiving (s.rawAfter raw)) ∧
    (s.session = .receiving → t.session = .frameReady →
      ∃ (data : List Byte) (rssi lqi : Byte), data.length = dataBytes ∧
        s.rawAfter raw = data ++ [rssi, lqi] ∧
        t.bufHolds (frameImage data rssi lqi
          ((if s.pendData = none then s.onTurn.env.afterRx else s.onTurn.env).pollIsr .idle s.cfg.pollMaxIsr).foe))

/-- R148, 10_state.md R35: an event handler never stops, and the command in progress finds `mseq`, `RSP`, `SYN*`, `CRC`, `tab`
and the configuration as it left them; a handler clears no flag, and sets no latch. -/
def Obligations.HandlersLeaveTheMainContextAlone : Prop :=
  ∀ (i : Instr) (s : State), i.isEvent = true →
    ∃ t, exec i s = .next t ∧
      t.mseq = s.mseq ∧ t.rsp = s.rsp ∧ t.syn2 = s.syn2 ∧ t.syn1 = s.syn1 ∧ t.syn0 = s.syn0 ∧ t.crc = s.crc ∧
      t.tab = s.tab ∧ t.cfg = s.cfg ∧ t.epoch = s.epoch ∧
      t.pendSfd = s.pendSfd ∧ t.pendByte = s.pendByte ∧ t.pendOvf = s.pendOvf ∧ t.pendData = s.pendData ∧
      (s.frameReady = true → t.frameReady = true) ∧ (s.error = true → t.error = true) ∧
      t.out.rspValid = s.out.rspValid ∧ t.out.calOut = s.out.calOut ∧ t.inIsr = false

/-- 43_crc.md R135, R148: what a handler does does not depend on `CRC`, `RSP`, `SYN*`, `tab` or `mseq`: with other contents
there, it does the same to everything else. -/
def Obligations.HandlersDoNotReadTheMainContext : Prop :=
  ∀ (i : Instr) (s t : State) (c : Word16) (r : Word32) (a2 a1 a0 : Byte) (tb : Table) (m : Mseq),
    i.isEvent = true → exec i s = .next t →
    exec i { s with crc := c, rsp := r, syn2 := a2, syn1 := a1, syn0 := a0, tab := tb, mseq := m } =
      .next { t with crc := c, rsp := r, syn2 := a2, syn1 := a1, syn0 := a0, tab := tb, mseq := m }

/-- 60_exceptions.md R154, 10_state.md R29, R30, 90_conflicts.md C5: no micro-step of a command writes the buffer or the
cursor, sets a flag or a latch, or touches `pend_data`. -/
def Obligations.CommandsNeverWriteTheBuffer : Prop :=
  ∀ (i : Instr) (s t : State), i.isEvent = false → exec i s = .next t →
    t.buf = s.buf ∧ t.cursor = s.cursor ∧ t.pendData = s.pendData ∧ t.inIsr = s.inIsr ∧ t.epoch = s.epoch ∧
    (t.frameReady = true → s.frameReady = true) ∧ (t.error = true → s.error = true) ∧
    (t.pendSfd = true → s.pendSfd = true) ∧ (t.pendByte = true → s.pendByte = true) ∧
    (t.pendOvf = true → s.pendOvf = true) ∧ t.out.rxRd = s.out.rxRd

/-- 10_state.md R25, R26, 42_frame.md R116 (c): `frame_ready` rises only in the completion of a frame and falls only by
`CLRRDY`, `TUNE`'s T6 or a reset; `error` rises only in the overflow handler and falls only by `TUNE`'s T6 or a reset: of
`exec` of every operation, and of every step of the machine, whose operation is `nextOp`. -/
def Obligations.FlagsChangeOnlyWhereTheRulesSay : Prop :=
  (∀ (i : Instr) (s t : State), exec i s = .next t →
    (t.frameReady ≠ s.frameReady → FrameReadyRow i s t) ∧ (t.error ≠ s.error → ErrorRow i s t)) ∧
  (∀ s t : State, step s = .next t →
    (t.frameReady ≠ s.frameReady →
      (s.env.turns.head? = some .rst ∧ t.frameReady = false) ∨ ∃ i, s.nextOp = some i ∧ FrameReadyRow i s t) ∧
    (t.error ≠ s.error →
      (s.env.turns.head? = some .rst ∧ t.error = false) ∨ ∃ i, s.nextOp = some i ∧ ErrorRow i s t))

/-- R115: the table of the session transitions: where `exec` of an operation changes `session`, it is one of the rows; and
where a step of the machine does, it is a reset to `IDLE` or the row of the operation it runs, `nextOp`. -/
def Obligations.SessionChangesOnlyAsTabulated : Prop :=
  (∀ (i : Instr) (s t : State), exec i s = .next t → t.session ≠ s.session → SessionRow i s t) ∧
  (∀ s t : State, step s = .next t → t.session ≠ s.session →
    (s.env.turns.head? = some .rst ∧ t.session = .idle) ∨ ∃ i, s.nextOp = some i ∧ SessionRow i s t)

/-! ## The consumer's commands (spec/42_frame.md §7) -/

/-- R118: `CLRRDY` clears `frame_ready`, takes `FRAME_READY` to `IDLE` and leaves every other session, answers 0, and changes
nothing else, `error` included. -/
def Obligations.ClrrdyClearsTheFlag : Prop :=
  ∀ s : State, s.mseq.busy = false →
    exec .clrrdy s = .next (State.responded { s with
      frameReady := false
      session := if s.session = .frameReady then .idle else s.session } 0x080000000000 0)

/-- R119: `RDBUF i` with `i ≤ N-1` answers the stored byte, zero-extended, in every session and whatever the flag is, and
changes nothing else. What a byte never written reads as is the model's choice (log 3). -/
def Obligations.RdbufAnswersTheStoredByte : Prop :=
  ∀ (s : State) (i : Byte), s.mseq.busy = false → i.toNat ≤ frameLen - 1 →
    ∃ t, exec (.rdbuf i) s = .next t ∧
      t = s.responded (cmdWord 0x09 i 0) t.rsp ∧
      ∀ b, Sparse.get? s.buf i.toNat = some b → t.rsp.toNat = b.toNat

/-- R120, 10_state.md R27, R28: `RDSTAT` answers the status word (session 2:0, frame_ready 3, error 4, zero 7:5, cursor 11:8,
zero 31:12), the session as 0 `IDLE`, 1 `CALIBRATING`, 2 `LISTENING`, 3 `RECEIVING`, 4 `FRAME_READY`, 5 `OVERFLOW_ERROR`, and
changes nothing else. -/
def Obligations.RdstatAnswersTheStatusWord : Prop :=
  ∀ s : State, s.mseq.busy = false →
    ∃ t, exec .rdstat s = .next t ∧
      t = s.responded 0x0A0000000000 t.rsp ∧
      t.rsp.extractLsb' 0 3 = (match s.session with
        | .idle => 0
        | .calibrating => 1
        | .listening => 2
        | .receiving => 3
        | .frameReady => 4
        | .overflowError => 5) ∧
      t.rsp.getLsbD 3 = s.frameReady ∧
      t.rsp.getLsbD 4 = s.error ∧
      t.rsp.extractLsb' 5 3 = 0 ∧
      t.rsp.extractLsb' 8 4 = s.cursor ∧
      t.rsp.extractLsb' 12 20 = 0

/-! ## The CRC generator (spec/43_crc.md) -/

/-- R131 to R133: `CRCCLR` sets the accumulator to 0 and answers 0; `CRCUPD b` runs one byte into it and answers the new value;
`CRCRD` answers it; none changes anything else. R130: one byte enters bits 15:8 by an exclusive or, then eight shifts to the
left, each with 0x1021 where bit 15 was set; how the byte enters is general knowledge in the spec itself (log 15, PRESUMED).
That `CRCUPD` and `CRCRD` run before a `CRCCLR`, which R132 and R133 refuse, is the model's choice (log 3). -/
def Obligations.CrcCommandsClearUpdateAndRead : Prop :=
  (∀ (s : State) (b : Byte), s.mseq.busy = false →
    exec .crcclr s = .next (State.responded { s with crc := 0 } 0x100000000000 0) ∧
    exec (.crcupd b) s = .next (State.responded { s with crc := crcByte s.crc b } (cmdWord 0x11 0 (b.setWidth 32))
      ((0 : BitVec 16) ++ crcByte s.crc b)) ∧
    exec .crcrd s = .next (s.responded 0x120000000000 ((0 : BitVec 16) ++ s.crc))) ∧
  (∀ (c : Word16) (b : Byte), crcByte c b =
    (fun x : Word16 => if x.getLsbD 15 = true then (x <<< 1) ^^^ 0x1021 else x <<< 1)^[8] (c ^^^ (b ++ (0 : Byte))))

/-- R136, R129: from any state at rest, the listing `CRC16 b0, ..., b(n-1)` answers `crc16` of the bytes, for every byte
sequence, and changes nothing but `CRC` and `RSP` (and the sequencer and the pulses); and `crc16` takes the bytes in order
into 0. What one byte does is CrcCommandsClearUpdateAndRead (R130, log 15). -/
def Obligations.CrcListingComputesTheChecksum : Prop :=
  (∀ (s : State) (bytes : List Byte), s.atRest = true →
    ∃ t, runListing 1 (crc16Ops bytes) s = .next t ∧
      t.rsp.toNat = (crc16 bytes).toNat ∧
      t = { s with crc := crc16 bytes, rsp := t.rsp, out := t.out, mseq := t.mseq } ∧ t.atRest = true) ∧
  crc16 [] = 0 ∧
  ∀ (bytes : List Byte) (b : Byte), crc16 (bytes ++ [b]) = crcByte (crc16 bytes) b

/-- R134: of two byte sequences of equal length that differ in exactly one byte, the checksums differ, because
`crc_byte(c, b)` is a bijection in `c`; eight zero bytes give 0x0000. That eight 0xFF bytes give 0xA6E1 rests on how a byte
enters, which the spec takes from general knowledge (log 15, PRESUMED). That a sequence has one checksum is what a function
says. -/
def Obligations.OneChangedByteChangesTheChecksum : Prop :=
  (∀ (before after : List Byte) (b b' : Byte), b ≠ b' →
    crc16 (before ++ b :: after) ≠ crc16 (before ++ b' :: after)) ∧
  (∀ b : Byte, Function.Bijective (fun c => crcByte c b)) ∧
  crc16 (List.replicate 8 0x00) = 0x0000 ∧ crc16 (List.replicate 8 0xFF) = 0xA6E1
end

