-- ==== Sys2Proof/Laws/Encoding.lean ====
section
/-! SUPPORT. The fields of a word and the words of a decoded operation. -/

namespace Sys2Proof

/-- The low part of two values side by side. -/
theorem extract_low {m n : Nat} (a : BitVec m) (b : BitVec n) : (a ++ b).extractLsb' 0 n = b :=
  BitVec.extractLsb'_append_eq_right

/-- The high part of two values side by side. -/
theorem extract_high {m n : Nat} (a : BitVec m) (b : BitVec n) : (a ++ b).extractLsb' n m = a :=
  BitVec.extractLsb'_append_eq_left

/-- The middle of three values side by side. -/
theorem extract_middle {l m n : Nat} (a : BitVec l) (b : BitVec m) (c : BitVec n) :
    (a ++ b ++ c).extractLsb' n m = b := by
  apply BitVec.eq_of_getLsbD_eq
  intro i hi
  simp [BitVec.getLsbD_append, hi]

/-- The top of three values side by side. -/
theorem extract_top {l m n : Nat} (a : BitVec l) (b : BitVec m) (c : BitVec n) :
    (a ++ b ++ c).extractLsb' (n + m) l = a := by
  apply BitVec.eq_of_getLsbD_eq
  intro i hi
  simp [BitVec.getLsbD_append, hi, Nat.add_assoc]

/-- A value is its two parts side by side. -/
theorem append_parts {m n : Nat} (w : BitVec (m + n)) : w.extractLsb' n m ++ w.extractLsb' 0 n = w := by
  apply BitVec.eq_of_getLsbD_eq
  intro i hi
  simp only [BitVec.getLsbD_append, BitVec.getLsbD_extractLsb']
  split
  · simp [*]
  · simp [show i - n < m by omega, show n + (i - n) = i by omega]

@[simp] theorem cmdOp_cmdWord (op idx : Byte) (arg : Word32) : cmdOp (cmdWord op idx arg) = op :=
  extract_top op idx arg

@[simp] theorem cmdIdx_cmdWord (op idx : Byte) (arg : Word32) : cmdIdx (cmdWord op idx arg) = idx :=
  extract_middle op idx arg

@[simp] theorem cmdArg_cmdWord (op idx : Byte) (arg : Word32) : cmdArg (cmdWord op idx arg) = arg :=
  extract_low (op ++ idx) arg

@[simp] theorem evKind_evWord (k : BitVec 2) (d : Byte) : evKind (evWord k d) = k :=
  extract_high k d

@[simp] theorem evData_evWord (k : BitVec 2) (d : Byte) : evData (evWord k d) = d :=
  extract_low k d

/-- A command word is made of its three fields. -/
theorem cmdWord_fields (w : BitVec 48) : cmdWord (cmdOp w) (cmdIdx w) (cmdArg w) = w := by
  have h1 : (cmdOp w ++ cmdIdx w : BitVec (8 + 8)) = w.extractLsb' 32 16 := by
    unfold cmdOp cmdIdx
    apply BitVec.eq_of_getLsbD_eq
    intro i hi
    simp only [BitVec.getLsbD_append, BitVec.getLsbD_extractLsb']
    split
    · simp [*]
    · simp [show i - 8 < 8 by omega, hi, show 40 + (i - 8) = 32 + i by omega]
  have h2 := append_parts (m := 16) (n := 32) w
  unfold cmdWord
  rw [h1]
  exact h2

/-- An event word is made of its two fields. -/
theorem evWord_fields (w : BitVec 10) : evWord (evKind w) (evData w) = w :=
  append_parts (m := 2) (n := 8) w

/-- Command words agree exactly where their fields do. -/
theorem cmdWord_inj {a b : Byte} {c d : Byte} {e f : Word32} :
    cmdWord a c e = cmdWord b d f ↔ a = b ∧ c = d ∧ e = f := by
  constructor
  · intro h
    exact ⟨by simpa using congrArg cmdOp h, by simpa using congrArg cmdIdx h, by simpa using congrArg cmdArg h⟩
  · rintro ⟨rfl, rfl, rfl⟩
    rfl

/-- Masking a command word masks its fields. -/
theorem cmdWord_and (a b : Byte) (c d : Byte) (e f : Word32) :
    cmdWord a c e &&& cmdWord b d f = cmdWord (a &&& b) (c &&& d) (e &&& f) := by
  rw [← cmdWord_fields (cmdWord a c e &&& cmdWord b d f), cmdWord_inj]
  refine ⟨?_, ?_, ?_⟩
  · exact (BitVec.extractLsb'_and).trans (congr_arg₂ _ (cmdOp_cmdWord a c e) (cmdOp_cmdWord b d f))
  · exact (BitVec.extractLsb'_and).trans (congr_arg₂ _ (cmdIdx_cmdWord a c e) (cmdIdx_cmdWord b d f))
  · exact (BitVec.extractLsb'_and).trans (congr_arg₂ _ (cmdArg_cmdWord a c e) (cmdArg_cmdWord b d f))

/-- Event words agree exactly where their fields do. -/
theorem evWord_inj {a b : BitVec 2} {c d : Byte} : evWord a c = evWord b d ↔ a = b ∧ c = d := by
  constructor
  · intro h
    exact ⟨by simpa using congrArg evKind h, by simpa using congrArg evData h⟩
  · rintro ⟨rfl, rfl⟩
    rfl

/-- Masking an event word masks its fields. -/
theorem evWord_and (a b : BitVec 2) (c d : Byte) : evWord a c &&& evWord b d = evWord (a &&& b) (c &&& d) := by
  rw [← evWord_fields (evWord a c &&& evWord b d), evWord_inj]
  exact ⟨(BitVec.extractLsb'_and).trans (congr_arg₂ _ (evKind_evWord a c) (evKind_evWord b d)),
    (BitVec.extractLsb'_and).trans (congr_arg₂ _ (evData_evWord a c) (evData_evWord b d))⟩

@[simp] theorem argByte_append (b : Byte) : argByte (0#24 ++ b) = b :=
  extract_low 0#24 b

@[simp] theorem argHigh_append (b : Byte) : argHigh (0#24 ++ b) = 0#24 :=
  extract_high 0#24 b

/-- The must-be-zero bits of `CRCUPD`'s argument, by mask. -/
theorem argHigh_eq_zero_iff (a : Word32) : a &&& 0xFFFFFF00#32 = 0#32 ↔ argHigh a = 0#24 := by
  have hh : argHigh (a &&& 0xFFFFFF00#32) = argHigh a := by
    unfold argHigh
    rw [BitVec.extractLsb'_and, show (0xFFFFFF00#32).extractLsb' 8 24 = BitVec.allOnes 24 from by decide,
      BitVec.and_allOnes]
  have hl : argByte (a &&& 0xFFFFFF00#32) = 0#8 := by
    unfold argByte
    rw [BitVec.extractLsb'_and, show (0xFFFFFF00#32).extractLsb' 0 8 = 0#8 from by decide, BitVec.and_zero]
  have key : (argHigh (a &&& 0xFFFFFF00#32) ++ argByte (a &&& 0xFFFFFF00#32) : BitVec (24 + 8)) = a &&& 0xFFFFFF00#32 :=
    append_parts (m := 24) (n := 8) (a &&& 0xFFFFFF00#32)
  rw [hh, hl] at key
  constructor
  · intro h
    rw [← hh, h]
    decide
  · intro h
    rw [← key, h]
    decide

/-- The byte operand of `CRCUPD` with its must-be-zero bits is the whole argument. -/
theorem append_argByte (a : Word32) (h : argHigh a = 0#24) : (0#24 ++ argByte a : Word32) = a := by
  have key : (argHigh a ++ argByte a : BitVec (24 + 8)) = a := append_parts (m := 24) (n := 8) a
  rw [h] at key
  exact key

end Sys2Proof
end

