-- ==== Sys2Proof/Laws/State.lean ====
section
/-! SUPPORT. What each named update of State leaves in each field: one lemma per field per update, true by rfl, so that no
later proof unfolds a record update. -/

namespace Sys2Proof.Machine

variable (s : State)

/-! ### quiet -/

@[simp] theorem State.quiet_cfg : s.quiet.cfg = s.cfg := rfl
@[simp] theorem State.quiet_env : s.quiet.env = s.env := rfl
@[simp] theorem State.quiet_out : s.quiet.out = Outputs.quiet := rfl
@[simp] theorem State.quiet_syn2 : s.quiet.syn2 = s.syn2 := rfl
@[simp] theorem State.quiet_syn1 : s.quiet.syn1 = s.syn1 := rfl
@[simp] theorem State.quiet_syn0 : s.quiet.syn0 = s.syn0 := rfl
@[simp] theorem State.quiet_crc : s.quiet.crc = s.crc := rfl
@[simp] theorem State.quiet_rsp : s.quiet.rsp = s.rsp := rfl
@[simp] theorem State.quiet_session : s.quiet.session = s.session := rfl
@[simp] theorem State.quiet_frameReady : s.quiet.frameReady = s.frameReady := rfl
@[simp] theorem State.quiet_error : s.quiet.error = s.error := rfl
@[simp] theorem State.quiet_cursor : s.quiet.cursor = s.cursor := rfl
@[simp] theorem State.quiet_buf : s.quiet.buf = s.buf := rfl
@[simp] theorem State.quiet_tab : s.quiet.tab = s.tab := rfl
@[simp] theorem State.quiet_pendSfd : s.quiet.pendSfd = s.pendSfd := rfl
@[simp] theorem State.quiet_pendByte : s.quiet.pendByte = s.pendByte := rfl
@[simp] theorem State.quiet_pendOvf : s.quiet.pendOvf = s.pendOvf := rfl
@[simp] theorem State.quiet_pendData : s.quiet.pendData = s.pendData := rfl
@[simp] theorem State.quiet_inIsr : s.quiet.inIsr = s.inIsr := rfl
@[simp] theorem State.quiet_mseq : s.quiet.mseq = s.mseq := rfl
@[simp] theorem State.quiet_epoch : s.quiet.epoch = s.epoch := rfl

/-! ### takeTurn -/

@[simp] theorem State.takeTurn_cfg : s.takeTurn.cfg = s.cfg := rfl
@[simp] theorem State.takeTurn_env : s.takeTurn.env = { s.env with turns := s.env.turns.tail } := rfl
@[simp] theorem State.takeTurn_out : s.takeTurn.out = s.out := rfl
@[simp] theorem State.takeTurn_syn2 : s.takeTurn.syn2 = s.syn2 := rfl
@[simp] theorem State.takeTurn_syn1 : s.takeTurn.syn1 = s.syn1 := rfl
@[simp] theorem State.takeTurn_syn0 : s.takeTurn.syn0 = s.syn0 := rfl
@[simp] theorem State.takeTurn_crc : s.takeTurn.crc = s.crc := rfl
@[simp] theorem State.takeTurn_rsp : s.takeTurn.rsp = s.rsp := rfl
@[simp] theorem State.takeTurn_session : s.takeTurn.session = s.session := rfl
@[simp] theorem State.takeTurn_frameReady : s.takeTurn.frameReady = s.frameReady := rfl
@[simp] theorem State.takeTurn_error : s.takeTurn.error = s.error := rfl
@[simp] theorem State.takeTurn_cursor : s.takeTurn.cursor = s.cursor := rfl
@[simp] theorem State.takeTurn_buf : s.takeTurn.buf = s.buf := rfl
@[simp] theorem State.takeTurn_tab : s.takeTurn.tab = s.tab := rfl
@[simp] theorem State.takeTurn_pendSfd : s.takeTurn.pendSfd = s.pendSfd := rfl
@[simp] theorem State.takeTurn_pendByte : s.takeTurn.pendByte = s.pendByte := rfl
@[simp] theorem State.takeTurn_pendOvf : s.takeTurn.pendOvf = s.pendOvf := rfl
@[simp] theorem State.takeTurn_pendData : s.takeTurn.pendData = s.pendData := rfl
@[simp] theorem State.takeTurn_inIsr : s.takeTurn.inIsr = s.inIsr := rfl
@[simp] theorem State.takeTurn_mseq : s.takeTurn.mseq = s.mseq := rfl
@[simp] theorem State.takeTurn_epoch : s.takeTurn.epoch = s.epoch := rfl

/-! ### takeCommand -/

@[simp] theorem State.takeCommand_cfg : s.takeCommand.cfg = s.cfg := rfl
@[simp] theorem State.takeCommand_env : s.takeCommand.env = { s.env with cmds := s.env.cmds.tail } := rfl
@[simp] theorem State.takeCommand_out : s.takeCommand.out = s.out := rfl
@[simp] theorem State.takeCommand_syn2 : s.takeCommand.syn2 = s.syn2 := rfl
@[simp] theorem State.takeCommand_syn1 : s.takeCommand.syn1 = s.syn1 := rfl
@[simp] theorem State.takeCommand_syn0 : s.takeCommand.syn0 = s.syn0 := rfl
@[simp] theorem State.takeCommand_crc : s.takeCommand.crc = s.crc := rfl
@[simp] theorem State.takeCommand_rsp : s.takeCommand.rsp = s.rsp := rfl
@[simp] theorem State.takeCommand_session : s.takeCommand.session = s.session := rfl
@[simp] theorem State.takeCommand_frameReady : s.takeCommand.frameReady = s.frameReady := rfl
@[simp] theorem State.takeCommand_error : s.takeCommand.error = s.error := rfl
@[simp] theorem State.takeCommand_cursor : s.takeCommand.cursor = s.cursor := rfl
@[simp] theorem State.takeCommand_buf : s.takeCommand.buf = s.buf := rfl
@[simp] theorem State.takeCommand_tab : s.takeCommand.tab = s.tab := rfl
@[simp] theorem State.takeCommand_pendSfd : s.takeCommand.pendSfd = s.pendSfd := rfl
@[simp] theorem State.takeCommand_pendByte : s.takeCommand.pendByte = s.pendByte := rfl
@[simp] theorem State.takeCommand_pendOvf : s.takeCommand.pendOvf = s.pendOvf := rfl
@[simp] theorem State.takeCommand_pendData : s.takeCommand.pendData = s.pendData := rfl
@[simp] theorem State.takeCommand_inIsr : s.takeCommand.inIsr = s.inIsr := rfl
@[simp] theorem State.takeCommand_mseq : s.takeCommand.mseq = s.mseq := rfl
@[simp] theorem State.takeCommand_epoch : s.takeCommand.epoch = s.epoch := rfl

/-! ### strobe -/

@[simp] theorem State.strobe_cfg (k : Strobe) : (s.strobe k).cfg = s.cfg := rfl
@[simp] theorem State.strobe_env (k : Strobe) : (s.strobe k).env = s.env := rfl
@[simp] theorem State.strobe_out (k : Strobe) : (s.strobe k).out = { s.out with strobe := some k } := rfl
@[simp] theorem State.strobe_syn2 (k : Strobe) : (s.strobe k).syn2 = s.syn2 := rfl
@[simp] theorem State.strobe_syn1 (k : Strobe) : (s.strobe k).syn1 = s.syn1 := rfl
@[simp] theorem State.strobe_syn0 (k : Strobe) : (s.strobe k).syn0 = s.syn0 := rfl
@[simp] theorem State.strobe_crc (k : Strobe) : (s.strobe k).crc = s.crc := rfl
@[simp] theorem State.strobe_rsp (k : Strobe) : (s.strobe k).rsp = s.rsp := rfl
@[simp] theorem State.strobe_session (k : Strobe) : (s.strobe k).session = s.session := rfl
@[simp] theorem State.strobe_frameReady (k : Strobe) : (s.strobe k).frameReady = s.frameReady := rfl
@[simp] theorem State.strobe_error (k : Strobe) : (s.strobe k).error = s.error := rfl
@[simp] theorem State.strobe_cursor (k : Strobe) : (s.strobe k).cursor = s.cursor := rfl
@[simp] theorem State.strobe_buf (k : Strobe) : (s.strobe k).buf = s.buf := rfl
@[simp] theorem State.strobe_tab (k : Strobe) : (s.strobe k).tab = s.tab := rfl
@[simp] theorem State.strobe_pendSfd (k : Strobe) : (s.strobe k).pendSfd = s.pendSfd := rfl
@[simp] theorem State.strobe_pendByte (k : Strobe) : (s.strobe k).pendByte = s.pendByte := rfl
@[simp] theorem State.strobe_pendOvf (k : Strobe) : (s.strobe k).pendOvf = s.pendOvf := rfl
@[simp] theorem State.strobe_pendData (k : Strobe) : (s.strobe k).pendData = s.pendData := rfl
@[simp] theorem State.strobe_inIsr (k : Strobe) : (s.strobe k).inIsr = s.inIsr := rfl
@[simp] theorem State.strobe_mseq (k : Strobe) : (s.strobe k).mseq = s.mseq := rfl
@[simp] theorem State.strobe_epoch (k : Strobe) : (s.strobe k).epoch = s.epoch := rfl

/-! ### calWrite -/

@[simp] theorem State.calWrite_cfg (c : Word24) : (s.calWrite c).cfg = s.cfg := rfl
@[simp] theorem State.calWrite_env (c : Word24) : (s.calWrite c).env = s.env := rfl
@[simp] theorem State.calWrite_out (c : Word24) : (s.calWrite c).out = { s.out with calOut := some c } := rfl
@[simp] theorem State.calWrite_syn2 (c : Word24) : (s.calWrite c).syn2 = s.syn2 := rfl
@[simp] theorem State.calWrite_syn1 (c : Word24) : (s.calWrite c).syn1 = s.syn1 := rfl
@[simp] theorem State.calWrite_syn0 (c : Word24) : (s.calWrite c).syn0 = s.syn0 := rfl
@[simp] theorem State.calWrite_crc (c : Word24) : (s.calWrite c).crc = s.crc := rfl
@[simp] theorem State.calWrite_rsp (c : Word24) : (s.calWrite c).rsp = s.rsp := rfl
@[simp] theorem State.calWrite_session (c : Word24) : (s.calWrite c).session = s.session := rfl
@[simp] theorem State.calWrite_frameReady (c : Word24) : (s.calWrite c).frameReady = s.frameReady := rfl
@[simp] theorem State.calWrite_error (c : Word24) : (s.calWrite c).error = s.error := rfl
@[simp] theorem State.calWrite_cursor (c : Word24) : (s.calWrite c).cursor = s.cursor := rfl
@[simp] theorem State.calWrite_buf (c : Word24) : (s.calWrite c).buf = s.buf := rfl
@[simp] theorem State.calWrite_tab (c : Word24) : (s.calWrite c).tab = s.tab := rfl
@[simp] theorem State.calWrite_pendSfd (c : Word24) : (s.calWrite c).pendSfd = s.pendSfd := rfl
@[simp] theorem State.calWrite_pendByte (c : Word24) : (s.calWrite c).pendByte = s.pendByte := rfl
@[simp] theorem State.calWrite_pendOvf (c : Word24) : (s.calWrite c).pendOvf = s.pendOvf := rfl
@[simp] theorem State.calWrite_pendData (c : Word24) : (s.calWrite c).pendData = s.pendData := rfl
@[simp] theorem State.calWrite_inIsr (c : Word24) : (s.calWrite c).inIsr = s.inIsr := rfl
@[simp] theorem State.calWrite_mseq (c : Word24) : (s.calWrite c).mseq = s.mseq := rfl
@[simp] theorem State.calWrite_epoch (c : Word24) : (s.calWrite c).epoch = s.epoch := rfl

/-! ### rxRead -/

@[simp] theorem State.rxRead_cfg : s.rxRead.cfg = s.cfg := rfl
@[simp] theorem State.rxRead_out : s.rxRead.out = { s.out with rxRd := true } := rfl
@[simp] theorem State.rxRead_syn2 : s.rxRead.syn2 = s.syn2 := rfl
@[simp] theorem State.rxRead_syn1 : s.rxRead.syn1 = s.syn1 := rfl
@[simp] theorem State.rxRead_syn0 : s.rxRead.syn0 = s.syn0 := rfl
@[simp] theorem State.rxRead_crc : s.rxRead.crc = s.crc := rfl
@[simp] theorem State.rxRead_rsp : s.rxRead.rsp = s.rsp := rfl
@[simp] theorem State.rxRead_session : s.rxRead.session = s.session := rfl
@[simp] theorem State.rxRead_frameReady : s.rxRead.frameReady = s.frameReady := rfl
@[simp] theorem State.rxRead_error : s.rxRead.error = s.error := rfl
@[simp] theorem State.rxRead_cursor : s.rxRead.cursor = s.cursor := rfl
@[simp] theorem State.rxRead_buf : s.rxRead.buf = s.buf := rfl
@[simp] theorem State.rxRead_tab : s.rxRead.tab = s.tab := rfl
@[simp] theorem State.rxRead_pendSfd : s.rxRead.pendSfd = s.pendSfd := rfl
@[simp] theorem State.rxRead_pendByte : s.rxRead.pendByte = s.pendByte := rfl
@[simp] theorem State.rxRead_pendOvf : s.rxRead.pendOvf = s.pendOvf := rfl
@[simp] theorem State.rxRead_pendData : s.rxRead.pendData = s.pendData := rfl
@[simp] theorem State.rxRead_inIsr : s.rxRead.inIsr = s.inIsr := rfl
@[simp] theorem State.rxRead_mseq : s.rxRead.mseq = s.mseq := rfl
@[simp] theorem State.rxRead_epoch : s.rxRead.epoch = s.epoch := rfl

/-! ### waitModeIsr -/

@[simp] theorem State.waitModeIsr_cfg (m : RMode) (l : Nat) : (s.waitModeIsr m l).cfg = s.cfg := rfl
@[simp] theorem State.waitModeIsr_env (m : RMode) (l : Nat) : (s.waitModeIsr m l).env = s.env.pollIsr m l := rfl
@[simp] theorem State.waitModeIsr_out (m : RMode) (l : Nat) : (s.waitModeIsr m l).out = s.out := rfl
@[simp] theorem State.waitModeIsr_syn2 (m : RMode) (l : Nat) : (s.waitModeIsr m l).syn2 = s.syn2 := rfl
@[simp] theorem State.waitModeIsr_syn1 (m : RMode) (l : Nat) : (s.waitModeIsr m l).syn1 = s.syn1 := rfl
@[simp] theorem State.waitModeIsr_syn0 (m : RMode) (l : Nat) : (s.waitModeIsr m l).syn0 = s.syn0 := rfl
@[simp] theorem State.waitModeIsr_crc (m : RMode) (l : Nat) : (s.waitModeIsr m l).crc = s.crc := rfl
@[simp] theorem State.waitModeIsr_rsp (m : RMode) (l : Nat) : (s.waitModeIsr m l).rsp = s.rsp := rfl
@[simp] theorem State.waitModeIsr_session (m : RMode) (l : Nat) : (s.waitModeIsr m l).session = s.session := rfl
@[simp] theorem State.waitModeIsr_frameReady (m : RMode) (l : Nat) : (s.waitModeIsr m l).frameReady = s.frameReady := rfl
@[simp] theorem State.waitModeIsr_error (m : RMode) (l : Nat) : (s.waitModeIsr m l).error = s.error := rfl
@[simp] theorem State.waitModeIsr_cursor (m : RMode) (l : Nat) : (s.waitModeIsr m l).cursor = s.cursor := rfl
@[simp] theorem State.waitModeIsr_buf (m : RMode) (l : Nat) : (s.waitModeIsr m l).buf = s.buf := rfl
@[simp] theorem State.waitModeIsr_tab (m : RMode) (l : Nat) : (s.waitModeIsr m l).tab = s.tab := rfl
@[simp] theorem State.waitModeIsr_pendSfd (m : RMode) (l : Nat) : (s.waitModeIsr m l).pendSfd = s.pendSfd := rfl
@[simp] theorem State.waitModeIsr_pendByte (m : RMode) (l : Nat) : (s.waitModeIsr m l).pendByte = s.pendByte := rfl
@[simp] theorem State.waitModeIsr_pendOvf (m : RMode) (l : Nat) : (s.waitModeIsr m l).pendOvf = s.pendOvf := rfl
@[simp] theorem State.waitModeIsr_pendData (m : RMode) (l : Nat) : (s.waitModeIsr m l).pendData = s.pendData := rfl
@[simp] theorem State.waitModeIsr_inIsr (m : RMode) (l : Nat) : (s.waitModeIsr m l).inIsr = s.inIsr := rfl
@[simp] theorem State.waitModeIsr_mseq (m : RMode) (l : Nat) : (s.waitModeIsr m l).mseq = s.mseq := rfl
@[simp] theorem State.waitModeIsr_epoch (m : RMode) (l : Nat) : (s.waitModeIsr m l).epoch = s.epoch := rfl

/-! ### synWrite -/

@[simp] theorem State.synWrite_cfg (w : Word24) : (s.synWrite w).cfg = s.cfg := rfl
@[simp] theorem State.synWrite_env (w : Word24) : (s.synWrite w).env = s.env := rfl
@[simp] theorem State.synWrite_out (w : Word24) : (s.synWrite w).out = s.out := rfl
@[simp] theorem State.synWrite_syn2 (w : Word24) : (s.synWrite w).syn2 = w.extractLsb' 16 8 := rfl
@[simp] theorem State.synWrite_syn1 (w : Word24) : (s.synWrite w).syn1 = w.extractLsb' 8 8 := rfl
@[simp] theorem State.synWrite_syn0 (w : Word24) : (s.synWrite w).syn0 = w.extractLsb' 0 8 := rfl
@[simp] theorem State.synWrite_crc (w : Word24) : (s.synWrite w).crc = s.crc := rfl
@[simp] theorem State.synWrite_rsp (w : Word24) : (s.synWrite w).rsp = s.rsp := rfl
@[simp] theorem State.synWrite_session (w : Word24) : (s.synWrite w).session = s.session := rfl
@[simp] theorem State.synWrite_frameReady (w : Word24) : (s.synWrite w).frameReady = s.frameReady := rfl
@[simp] theorem State.synWrite_error (w : Word24) : (s.synWrite w).error = s.error := rfl
@[simp] theorem State.synWrite_cursor (w : Word24) : (s.synWrite w).cursor = s.cursor := rfl
@[simp] theorem State.synWrite_buf (w : Word24) : (s.synWrite w).buf = s.buf := rfl
@[simp] theorem State.synWrite_tab (w : Word24) : (s.synWrite w).tab = s.tab := rfl
@[simp] theorem State.synWrite_pendSfd (w : Word24) : (s.synWrite w).pendSfd = s.pendSfd := rfl
@[simp] theorem State.synWrite_pendByte (w : Word24) : (s.synWrite w).pendByte = s.pendByte := rfl
@[simp] theorem State.synWrite_pendOvf (w : Word24) : (s.synWrite w).pendOvf = s.pendOvf := rfl
@[simp] theorem State.synWrite_pendData (w : Word24) : (s.synWrite w).pendData = s.pendData := rfl
@[simp] theorem State.synWrite_inIsr (w : Word24) : (s.synWrite w).inIsr = s.inIsr := rfl
@[simp] theorem State.synWrite_mseq (w : Word24) : (s.synWrite w).mseq = s.mseq := rfl
@[simp] theorem State.synWrite_epoch (w : Word24) : (s.synWrite w).epoch = s.epoch := rfl

/-! ### setSession -/

@[simp] theorem State.setSession_cfg (x : Session) : (s.setSession x).cfg = s.cfg := rfl
@[simp] theorem State.setSession_env (x : Session) : (s.setSession x).env = s.env := rfl
@[simp] theorem State.setSession_out (x : Session) : (s.setSession x).out = s.out := rfl
@[simp] theorem State.setSession_syn2 (x : Session) : (s.setSession x).syn2 = s.syn2 := rfl
@[simp] theorem State.setSession_syn1 (x : Session) : (s.setSession x).syn1 = s.syn1 := rfl
@[simp] theorem State.setSession_syn0 (x : Session) : (s.setSession x).syn0 = s.syn0 := rfl
@[simp] theorem State.setSession_crc (x : Session) : (s.setSession x).crc = s.crc := rfl
@[simp] theorem State.setSession_rsp (x : Session) : (s.setSession x).rsp = s.rsp := rfl
@[simp] theorem State.setSession_session (x : Session) : (s.setSession x).session = x := rfl
@[simp] theorem State.setSession_frameReady (x : Session) : (s.setSession x).frameReady = s.frameReady := rfl
@[simp] theorem State.setSession_error (x : Session) : (s.setSession x).error = s.error := rfl
@[simp] theorem State.setSession_cursor (x : Session) : (s.setSession x).cursor = s.cursor := rfl
@[simp] theorem State.setSession_buf (x : Session) : (s.setSession x).buf = s.buf := rfl
@[simp] theorem State.setSession_tab (x : Session) : (s.setSession x).tab = s.tab := rfl
@[simp] theorem State.setSession_pendSfd (x : Session) : (s.setSession x).pendSfd = s.pendSfd := rfl
@[simp] theorem State.setSession_pendByte (x : Session) : (s.setSession x).pendByte = s.pendByte := rfl
@[simp] theorem State.setSession_pendOvf (x : Session) : (s.setSession x).pendOvf = s.pendOvf := rfl
@[simp] theorem State.setSession_pendData (x : Session) : (s.setSession x).pendData = s.pendData := rfl
@[simp] theorem State.setSession_inIsr (x : Session) : (s.setSession x).inIsr = s.inIsr := rfl
@[simp] theorem State.setSession_mseq (x : Session) : (s.setSession x).mseq = s.mseq := rfl
@[simp] theorem State.setSession_epoch (x : Session) : (s.setSession x).epoch = s.epoch := rfl

/-! ### armRx -/

@[simp] theorem State.armRx_cfg : s.armRx.cfg = s.cfg := rfl
@[simp] theorem State.armRx_env : s.armRx.env = s.env := rfl
@[simp] theorem State.armRx_out : s.armRx.out = { s.out with strobe := some .rx } := rfl
@[simp] theorem State.armRx_syn2 : s.armRx.syn2 = s.syn2 := rfl
@[simp] theorem State.armRx_syn1 : s.armRx.syn1 = s.syn1 := rfl
@[simp] theorem State.armRx_syn0 : s.armRx.syn0 = s.syn0 := rfl
@[simp] theorem State.armRx_crc : s.armRx.crc = s.crc := rfl
@[simp] theorem State.armRx_rsp : s.armRx.rsp = s.rsp := rfl
@[simp] theorem State.armRx_session : s.armRx.session = .calibrating := rfl
@[simp] theorem State.armRx_frameReady : s.armRx.frameReady = s.frameReady := rfl
@[simp] theorem State.armRx_error : s.armRx.error = s.error := rfl
@[simp] theorem State.armRx_cursor : s.armRx.cursor = s.cursor := rfl
@[simp] theorem State.armRx_buf : s.armRx.buf = s.buf := rfl
@[simp] theorem State.armRx_tab : s.armRx.tab = s.tab := rfl
@[simp] theorem State.armRx_pendSfd : s.armRx.pendSfd = s.pendSfd := rfl
@[simp] theorem State.armRx_pendByte : s.armRx.pendByte = s.pendByte := rfl
@[simp] theorem State.armRx_pendOvf : s.armRx.pendOvf = s.pendOvf := rfl
@[simp] theorem State.armRx_pendData : s.armRx.pendData = s.pendData := rfl
@[simp] theorem State.armRx_inIsr : s.armRx.inIsr = s.inIsr := rfl
@[simp] theorem State.armRx_mseq : s.armRx.mseq = s.mseq := rfl
@[simp] theorem State.armRx_epoch : s.armRx.epoch = s.epoch := rfl

/-! ### confirmRx -/

@[simp] theorem State.confirmRx_cfg : s.confirmRx.cfg = s.cfg := rfl
@[simp] theorem State.confirmRx_env : s.confirmRx.env = s.env := rfl
@[simp] theorem State.confirmRx_out : s.confirmRx.out = s.out := rfl
@[simp] theorem State.confirmRx_syn2 : s.confirmRx.syn2 = s.syn2 := rfl
@[simp] theorem State.confirmRx_syn1 : s.confirmRx.syn1 = s.syn1 := rfl
@[simp] theorem State.confirmRx_syn0 : s.confirmRx.syn0 = s.syn0 := rfl
@[simp] theorem State.confirmRx_crc : s.confirmRx.crc = s.crc := rfl
@[simp] theorem State.confirmRx_rsp : s.confirmRx.rsp = s.rsp := rfl
@[simp] theorem State.confirmRx_session : s.confirmRx.session = if s.session = .calibrating then .listening else s.session := rfl
@[simp] theorem State.confirmRx_frameReady : s.confirmRx.frameReady = s.frameReady := rfl
@[simp] theorem State.confirmRx_error : s.confirmRx.error = s.error := rfl
@[simp] theorem State.confirmRx_cursor : s.confirmRx.cursor = s.cursor := rfl
@[simp] theorem State.confirmRx_buf : s.confirmRx.buf = s.buf := rfl
@[simp] theorem State.confirmRx_tab : s.confirmRx.tab = s.tab := rfl
@[simp] theorem State.confirmRx_pendSfd : s.confirmRx.pendSfd = s.pendSfd := rfl
@[simp] theorem State.confirmRx_pendByte : s.confirmRx.pendByte = s.pendByte := rfl
@[simp] theorem State.confirmRx_pendOvf : s.confirmRx.pendOvf = s.pendOvf := rfl
@[simp] theorem State.confirmRx_pendData : s.confirmRx.pendData = s.pendData := rfl
@[simp] theorem State.confirmRx_inIsr : s.confirmRx.inIsr = s.inIsr := rfl
@[simp] theorem State.confirmRx_mseq : s.confirmRx.mseq = s.mseq := rfl
@[simp] theorem State.confirmRx_epoch : s.confirmRx.epoch = s.epoch := rfl

/-! ### ifClr -/

@[simp] theorem State.ifClr_cfg : s.ifClr.cfg = s.cfg := rfl
@[simp] theorem State.ifClr_env : s.ifClr.env = s.env := rfl
@[simp] theorem State.ifClr_out : s.ifClr.out = s.out := rfl
@[simp] theorem State.ifClr_syn2 : s.ifClr.syn2 = s.syn2 := rfl
@[simp] theorem State.ifClr_syn1 : s.ifClr.syn1 = s.syn1 := rfl
@[simp] theorem State.ifClr_syn0 : s.ifClr.syn0 = s.syn0 := rfl
@[simp] theorem State.ifClr_crc : s.ifClr.crc = s.crc := rfl
@[simp] theorem State.ifClr_rsp : s.ifClr.rsp = s.rsp := rfl
@[simp] theorem State.ifClr_session : s.ifClr.session = s.session := rfl
@[simp] theorem State.ifClr_frameReady : s.ifClr.frameReady = s.frameReady := rfl
@[simp] theorem State.ifClr_error : s.ifClr.error = s.error := rfl
@[simp] theorem State.ifClr_cursor : s.ifClr.cursor = s.cursor := rfl
@[simp] theorem State.ifClr_buf : s.ifClr.buf = s.buf := rfl
@[simp] theorem State.ifClr_tab : s.ifClr.tab = s.tab := rfl
@[simp] theorem State.ifClr_pendSfd : s.ifClr.pendSfd = false := rfl
@[simp] theorem State.ifClr_pendByte : s.ifClr.pendByte = false := rfl
@[simp] theorem State.ifClr_pendOvf : s.ifClr.pendOvf = false := rfl
@[simp] theorem State.ifClr_pendData : s.ifClr.pendData = s.pendData := rfl
@[simp] theorem State.ifClr_inIsr : s.ifClr.inIsr = s.inIsr := rfl
@[simp] theorem State.ifClr_mseq : s.ifClr.mseq = s.mseq := rfl
@[simp] theorem State.ifClr_epoch : s.ifClr.epoch = s.epoch := rfl

/-! ### accept -/

@[simp] theorem State.accept_cfg (w : BitVec 48) (m : Micro) : (s.accept w m).cfg = s.cfg := rfl
@[simp] theorem State.accept_env (w : BitVec 48) (m : Micro) : (s.accept w m).env = s.env := rfl
@[simp] theorem State.accept_out (w : BitVec 48) (m : Micro) : (s.accept w m).out = s.out := rfl
@[simp] theorem State.accept_syn2 (w : BitVec 48) (m : Micro) : (s.accept w m).syn2 = s.syn2 := rfl
@[simp] theorem State.accept_syn1 (w : BitVec 48) (m : Micro) : (s.accept w m).syn1 = s.syn1 := rfl
@[simp] theorem State.accept_syn0 (w : BitVec 48) (m : Micro) : (s.accept w m).syn0 = s.syn0 := rfl
@[simp] theorem State.accept_crc (w : BitVec 48) (m : Micro) : (s.accept w m).crc = s.crc := rfl
@[simp] theorem State.accept_rsp (w : BitVec 48) (m : Micro) : (s.accept w m).rsp = s.rsp := rfl
@[simp] theorem State.accept_session (w : BitVec 48) (m : Micro) : (s.accept w m).session = s.session := rfl
@[simp] theorem State.accept_frameReady (w : BitVec 48) (m : Micro) : (s.accept w m).frameReady = s.frameReady := rfl
@[simp] theorem State.accept_error (w : BitVec 48) (m : Micro) : (s.accept w m).error = s.error := rfl
@[simp] theorem State.accept_cursor (w : BitVec 48) (m : Micro) : (s.accept w m).cursor = s.cursor := rfl
@[simp] theorem State.accept_buf (w : BitVec 48) (m : Micro) : (s.accept w m).buf = s.buf := rfl
@[simp] theorem State.accept_tab (w : BitVec 48) (m : Micro) : (s.accept w m).tab = s.tab := rfl
@[simp] theorem State.accept_pendSfd (w : BitVec 48) (m : Micro) : (s.accept w m).pendSfd = s.pendSfd := rfl
@[simp] theorem State.accept_pendByte (w : BitVec 48) (m : Micro) : (s.accept w m).pendByte = s.pendByte := rfl
@[simp] theorem State.accept_pendOvf (w : BitVec 48) (m : Micro) : (s.accept w m).pendOvf = s.pendOvf := rfl
@[simp] theorem State.accept_pendData (w : BitVec 48) (m : Micro) : (s.accept w m).pendData = s.pendData := rfl
@[simp] theorem State.accept_inIsr (w : BitVec 48) (m : Micro) : (s.accept w m).inIsr = s.inIsr := rfl
@[simp] theorem State.accept_mseq (w : BitVec 48) (m : Micro) : (s.accept w m).mseq = ⟨true, cmdOp w, m, cmdArg w, cmdIdx w, 0, 0⟩ := rfl
@[simp] theorem State.accept_epoch (w : BitVec 48) (m : Micro) : (s.accept w m).epoch = s.epoch := rfl

/-! ### goto -/

@[simp] theorem State.goto_cfg (m : Micro) : (s.goto m).cfg = s.cfg := rfl
@[simp] theorem State.goto_env (m : Micro) : (s.goto m).env = s.env := rfl
@[simp] theorem State.goto_out (m : Micro) : (s.goto m).out = s.out := rfl
@[simp] theorem State.goto_syn2 (m : Micro) : (s.goto m).syn2 = s.syn2 := rfl
@[simp] theorem State.goto_syn1 (m : Micro) : (s.goto m).syn1 = s.syn1 := rfl
@[simp] theorem State.goto_syn0 (m : Micro) : (s.goto m).syn0 = s.syn0 := rfl
@[simp] theorem State.goto_crc (m : Micro) : (s.goto m).crc = s.crc := rfl
@[simp] theorem State.goto_rsp (m : Micro) : (s.goto m).rsp = s.rsp := rfl
@[simp] theorem State.goto_session (m : Micro) : (s.goto m).session = s.session := rfl
@[simp] theorem State.goto_frameReady (m : Micro) : (s.goto m).frameReady = s.frameReady := rfl
@[simp] theorem State.goto_error (m : Micro) : (s.goto m).error = s.error := rfl
@[simp] theorem State.goto_cursor (m : Micro) : (s.goto m).cursor = s.cursor := rfl
@[simp] theorem State.goto_buf (m : Micro) : (s.goto m).buf = s.buf := rfl
@[simp] theorem State.goto_tab (m : Micro) : (s.goto m).tab = s.tab := rfl
@[simp] theorem State.goto_pendSfd (m : Micro) : (s.goto m).pendSfd = s.pendSfd := rfl
@[simp] theorem State.goto_pendByte (m : Micro) : (s.goto m).pendByte = s.pendByte := rfl
@[simp] theorem State.goto_pendOvf (m : Micro) : (s.goto m).pendOvf = s.pendOvf := rfl
@[simp] theorem State.goto_pendData (m : Micro) : (s.goto m).pendData = s.pendData := rfl
@[simp] theorem State.goto_inIsr (m : Micro) : (s.goto m).inIsr = s.inIsr := rfl
@[simp] theorem State.goto_mseq (m : Micro) : (s.goto m).mseq = { s.mseq with step := m, n := 0 } := rfl
@[simp] theorem State.goto_epoch (m : Micro) : (s.goto m).epoch = s.epoch := rfl

/-! ### tickTo -/

@[simp] theorem State.tickTo_cfg (m : Micro) : (s.tickTo m).cfg = s.cfg := rfl
@[simp] theorem State.tickTo_env (m : Micro) : (s.tickTo m).env = s.env := rfl
@[simp] theorem State.tickTo_out (m : Micro) : (s.tickTo m).out = s.out := rfl
@[simp] theorem State.tickTo_syn2 (m : Micro) : (s.tickTo m).syn2 = s.syn2 := rfl
@[simp] theorem State.tickTo_syn1 (m : Micro) : (s.tickTo m).syn1 = s.syn1 := rfl
@[simp] theorem State.tickTo_syn0 (m : Micro) : (s.tickTo m).syn0 = s.syn0 := rfl
@[simp] theorem State.tickTo_crc (m : Micro) : (s.tickTo m).crc = s.crc := rfl
@[simp] theorem State.tickTo_rsp (m : Micro) : (s.tickTo m).rsp = s.rsp := rfl
@[simp] theorem State.tickTo_session (m : Micro) : (s.tickTo m).session = s.session := rfl
@[simp] theorem State.tickTo_frameReady (m : Micro) : (s.tickTo m).frameReady = s.frameReady := rfl
@[simp] theorem State.tickTo_error (m : Micro) : (s.tickTo m).error = s.error := rfl
@[simp] theorem State.tickTo_cursor (m : Micro) : (s.tickTo m).cursor = s.cursor := rfl
@[simp] theorem State.tickTo_buf (m : Micro) : (s.tickTo m).buf = s.buf := rfl
@[simp] theorem State.tickTo_tab (m : Micro) : (s.tickTo m).tab = s.tab := rfl
@[simp] theorem State.tickTo_pendSfd (m : Micro) : (s.tickTo m).pendSfd = s.pendSfd := rfl
@[simp] theorem State.tickTo_pendByte (m : Micro) : (s.tickTo m).pendByte = s.pendByte := rfl
@[simp] theorem State.tickTo_pendOvf (m : Micro) : (s.tickTo m).pendOvf = s.pendOvf := rfl
@[simp] theorem State.tickTo_pendData (m : Micro) : (s.tickTo m).pendData = s.pendData := rfl
@[simp] theorem State.tickTo_inIsr (m : Micro) : (s.tickTo m).inIsr = s.inIsr := rfl
@[simp] theorem State.tickTo_mseq (m : Micro) : (s.tickTo m).mseq = { s.mseq with step := m, n := s.mseq.n + 1 } := rfl
@[simp] theorem State.tickTo_epoch (m : Micro) : (s.tickTo m).epoch = s.epoch := rfl

/-! ### finish -/

@[simp] theorem State.finish_cfg (v : Word32) : (s.finish v).cfg = s.cfg := rfl
@[simp] theorem State.finish_env (v : Word32) : (s.finish v).env = s.env := rfl
@[simp] theorem State.finish_out (v : Word32) : (s.finish v).out = { s.out with rspValid := true } := rfl
@[simp] theorem State.finish_syn2 (v : Word32) : (s.finish v).syn2 = s.syn2 := rfl
@[simp] theorem State.finish_syn1 (v : Word32) : (s.finish v).syn1 = s.syn1 := rfl
@[simp] theorem State.finish_syn0 (v : Word32) : (s.finish v).syn0 = s.syn0 := rfl
@[simp] theorem State.finish_crc (v : Word32) : (s.finish v).crc = s.crc := rfl
@[simp] theorem State.finish_rsp (v : Word32) : (s.finish v).rsp = v := rfl
@[simp] theorem State.finish_session (v : Word32) : (s.finish v).session = s.session := rfl
@[simp] theorem State.finish_frameReady (v : Word32) : (s.finish v).frameReady = s.frameReady := rfl
@[simp] theorem State.finish_error (v : Word32) : (s.finish v).error = s.error := rfl
@[simp] theorem State.finish_cursor (v : Word32) : (s.finish v).cursor = s.cursor := rfl
@[simp] theorem State.finish_buf (v : Word32) : (s.finish v).buf = s.buf := rfl
@[simp] theorem State.finish_tab (v : Word32) : (s.finish v).tab = s.tab := rfl
@[simp] theorem State.finish_pendSfd (v : Word32) : (s.finish v).pendSfd = s.pendSfd := rfl
@[simp] theorem State.finish_pendByte (v : Word32) : (s.finish v).pendByte = s.pendByte := rfl
@[simp] theorem State.finish_pendOvf (v : Word32) : (s.finish v).pendOvf = s.pendOvf := rfl
@[simp] theorem State.finish_pendData (v : Word32) : (s.finish v).pendData = s.pendData := rfl
@[simp] theorem State.finish_inIsr (v : Word32) : (s.finish v).inIsr = s.inIsr := rfl
@[simp] theorem State.finish_mseq (v : Word32) : (s.finish v).mseq = { s.mseq with busy := false } := rfl
@[simp] theorem State.finish_epoch (v : Word32) : (s.finish v).epoch = s.epoch := rfl

/-! ### returnFromEvent -/

@[simp] theorem State.returnFromEvent_cfg : s.returnFromEvent.cfg = s.cfg := rfl
@[simp] theorem State.returnFromEvent_env : s.returnFromEvent.env = s.env := rfl
@[simp] theorem State.returnFromEvent_out : s.returnFromEvent.out = s.out := rfl
@[simp] theorem State.returnFromEvent_syn2 : s.returnFromEvent.syn2 = s.syn2 := rfl
@[simp] theorem State.returnFromEvent_syn1 : s.returnFromEvent.syn1 = s.syn1 := rfl
@[simp] theorem State.returnFromEvent_syn0 : s.returnFromEvent.syn0 = s.syn0 := rfl
@[simp] theorem State.returnFromEvent_crc : s.returnFromEvent.crc = s.crc := rfl
@[simp] theorem State.returnFromEvent_rsp : s.returnFromEvent.rsp = s.rsp := rfl
@[simp] theorem State.returnFromEvent_session : s.returnFromEvent.session = s.session := rfl
@[simp] theorem State.returnFromEvent_frameReady : s.returnFromEvent.frameReady = s.frameReady := rfl
@[simp] theorem State.returnFromEvent_error : s.returnFromEvent.error = s.error := rfl
@[simp] theorem State.returnFromEvent_cursor : s.returnFromEvent.cursor = s.cursor := rfl
@[simp] theorem State.returnFromEvent_buf : s.returnFromEvent.buf = s.buf := rfl
@[simp] theorem State.returnFromEvent_tab : s.returnFromEvent.tab = s.tab := rfl
@[simp] theorem State.returnFromEvent_pendSfd : s.returnFromEvent.pendSfd = s.pendSfd := rfl
@[simp] theorem State.returnFromEvent_pendByte : s.returnFromEvent.pendByte = s.pendByte := rfl
@[simp] theorem State.returnFromEvent_pendOvf : s.returnFromEvent.pendOvf = s.pendOvf := rfl
@[simp] theorem State.returnFromEvent_pendData : s.returnFromEvent.pendData = s.pendData := rfl
@[simp] theorem State.returnFromEvent_inIsr : s.returnFromEvent.inIsr = false := rfl
@[simp] theorem State.returnFromEvent_mseq : s.returnFromEvent.mseq = s.mseq := rfl
@[simp] theorem State.returnFromEvent_epoch : s.returnFromEvent.epoch = s.epoch := rfl

/-! ### bufWrite -/

@[simp] theorem State.bufWrite_cfg (i : Nat) (v : Byte) : (s.bufWrite i v).cfg = s.cfg := rfl
@[simp] theorem State.bufWrite_env (i : Nat) (v : Byte) : (s.bufWrite i v).env = s.env := rfl
@[simp] theorem State.bufWrite_out (i : Nat) (v : Byte) : (s.bufWrite i v).out = s.out := rfl
@[simp] theorem State.bufWrite_syn2 (i : Nat) (v : Byte) : (s.bufWrite i v).syn2 = s.syn2 := rfl
@[simp] theorem State.bufWrite_syn1 (i : Nat) (v : Byte) : (s.bufWrite i v).syn1 = s.syn1 := rfl
@[simp] theorem State.bufWrite_syn0 (i : Nat) (v : Byte) : (s.bufWrite i v).syn0 = s.syn0 := rfl
@[simp] theorem State.bufWrite_crc (i : Nat) (v : Byte) : (s.bufWrite i v).crc = s.crc := rfl
@[simp] theorem State.bufWrite_rsp (i : Nat) (v : Byte) : (s.bufWrite i v).rsp = s.rsp := rfl
@[simp] theorem State.bufWrite_session (i : Nat) (v : Byte) : (s.bufWrite i v).session = s.session := rfl
@[simp] theorem State.bufWrite_frameReady (i : Nat) (v : Byte) : (s.bufWrite i v).frameReady = s.frameReady := rfl
@[simp] theorem State.bufWrite_error (i : Nat) (v : Byte) : (s.bufWrite i v).error = s.error := rfl
@[simp] theorem State.bufWrite_cursor (i : Nat) (v : Byte) : (s.bufWrite i v).cursor = s.cursor := rfl
@[simp] theorem State.bufWrite_buf (i : Nat) (v : Byte) : (s.bufWrite i v).buf = Sparse.put s.buf i v := rfl
@[simp] theorem State.bufWrite_tab (i : Nat) (v : Byte) : (s.bufWrite i v).tab = s.tab := rfl
@[simp] theorem State.bufWrite_pendSfd (i : Nat) (v : Byte) : (s.bufWrite i v).pendSfd = s.pendSfd := rfl
@[simp] theorem State.bufWrite_pendByte (i : Nat) (v : Byte) : (s.bufWrite i v).pendByte = s.pendByte := rfl
@[simp] theorem State.bufWrite_pendOvf (i : Nat) (v : Byte) : (s.bufWrite i v).pendOvf = s.pendOvf := rfl
@[simp] theorem State.bufWrite_pendData (i : Nat) (v : Byte) : (s.bufWrite i v).pendData = s.pendData := rfl
@[simp] theorem State.bufWrite_inIsr (i : Nat) (v : Byte) : (s.bufWrite i v).inIsr = s.inIsr := rfl
@[simp] theorem State.bufWrite_mseq (i : Nat) (v : Byte) : (s.bufWrite i v).mseq = s.mseq := rfl
@[simp] theorem State.bufWrite_epoch (i : Nat) (v : Byte) : (s.bufWrite i v).epoch = s.epoch := rfl

/-! ### setEntry -/

@[simp] theorem State.setEntry_cfg (ch : Nat) (e : Entry) : (s.setEntry ch e).cfg = s.cfg := rfl
@[simp] theorem State.setEntry_env (ch : Nat) (e : Entry) : (s.setEntry ch e).env = s.env := rfl
@[simp] theorem State.setEntry_out (ch : Nat) (e : Entry) : (s.setEntry ch e).out = s.out := rfl
@[simp] theorem State.setEntry_syn2 (ch : Nat) (e : Entry) : (s.setEntry ch e).syn2 = s.syn2 := rfl
@[simp] theorem State.setEntry_syn1 (ch : Nat) (e : Entry) : (s.setEntry ch e).syn1 = s.syn1 := rfl
@[simp] theorem State.setEntry_syn0 (ch : Nat) (e : Entry) : (s.setEntry ch e).syn0 = s.syn0 := rfl
@[simp] theorem State.setEntry_crc (ch : Nat) (e : Entry) : (s.setEntry ch e).crc = s.crc := rfl
@[simp] theorem State.setEntry_rsp (ch : Nat) (e : Entry) : (s.setEntry ch e).rsp = s.rsp := rfl
@[simp] theorem State.setEntry_session (ch : Nat) (e : Entry) : (s.setEntry ch e).session = s.session := rfl
@[simp] theorem State.setEntry_frameReady (ch : Nat) (e : Entry) : (s.setEntry ch e).frameReady = s.frameReady := rfl
@[simp] theorem State.setEntry_error (ch : Nat) (e : Entry) : (s.setEntry ch e).error = s.error := rfl
@[simp] theorem State.setEntry_cursor (ch : Nat) (e : Entry) : (s.setEntry ch e).cursor = s.cursor := rfl
@[simp] theorem State.setEntry_buf (ch : Nat) (e : Entry) : (s.setEntry ch e).buf = s.buf := rfl
@[simp] theorem State.setEntry_tab (ch : Nat) (e : Entry) : (s.setEntry ch e).tab = Sparse.put s.tab ch e := rfl
@[simp] theorem State.setEntry_pendSfd (ch : Nat) (e : Entry) : (s.setEntry ch e).pendSfd = s.pendSfd := rfl
@[simp] theorem State.setEntry_pendByte (ch : Nat) (e : Entry) : (s.setEntry ch e).pendByte = s.pendByte := rfl
@[simp] theorem State.setEntry_pendOvf (ch : Nat) (e : Entry) : (s.setEntry ch e).pendOvf = s.pendOvf := rfl
@[simp] theorem State.setEntry_pendData (ch : Nat) (e : Entry) : (s.setEntry ch e).pendData = s.pendData := rfl
@[simp] theorem State.setEntry_inIsr (ch : Nat) (e : Entry) : (s.setEntry ch e).inIsr = s.inIsr := rfl
@[simp] theorem State.setEntry_mseq (ch : Nat) (e : Entry) : (s.setEntry ch e).mseq = s.mseq := rfl
@[simp] theorem State.setEntry_epoch (ch : Nat) (e : Entry) : (s.setEntry ch e).epoch = s.epoch := rfl

/-! ### setCrc -/

@[simp] theorem State.setCrc_cfg (v : Word16) : (s.setCrc v).cfg = s.cfg := rfl
@[simp] theorem State.setCrc_env (v : Word16) : (s.setCrc v).env = s.env := rfl
@[simp] theorem State.setCrc_out (v : Word16) : (s.setCrc v).out = s.out := rfl
@[simp] theorem State.setCrc_syn2 (v : Word16) : (s.setCrc v).syn2 = s.syn2 := rfl
@[simp] theorem State.setCrc_syn1 (v : Word16) : (s.setCrc v).syn1 = s.syn1 := rfl
@[simp] theorem State.setCrc_syn0 (v : Word16) : (s.setCrc v).syn0 = s.syn0 := rfl
@[simp] theorem State.setCrc_crc (v : Word16) : (s.setCrc v).crc = v := rfl
@[simp] theorem State.setCrc_rsp (v : Word16) : (s.setCrc v).rsp = s.rsp := rfl
@[simp] theorem State.setCrc_session (v : Word16) : (s.setCrc v).session = s.session := rfl
@[simp] theorem State.setCrc_frameReady (v : Word16) : (s.setCrc v).frameReady = s.frameReady := rfl
@[simp] theorem State.setCrc_error (v : Word16) : (s.setCrc v).error = s.error := rfl
@[simp] theorem State.setCrc_cursor (v : Word16) : (s.setCrc v).cursor = s.cursor := rfl
@[simp] theorem State.setCrc_buf (v : Word16) : (s.setCrc v).buf = s.buf := rfl
@[simp] theorem State.setCrc_tab (v : Word16) : (s.setCrc v).tab = s.tab := rfl
@[simp] theorem State.setCrc_pendSfd (v : Word16) : (s.setCrc v).pendSfd = s.pendSfd := rfl
@[simp] theorem State.setCrc_pendByte (v : Word16) : (s.setCrc v).pendByte = s.pendByte := rfl
@[simp] theorem State.setCrc_pendOvf (v : Word16) : (s.setCrc v).pendOvf = s.pendOvf := rfl
@[simp] theorem State.setCrc_pendData (v : Word16) : (s.setCrc v).pendData = s.pendData := rfl
@[simp] theorem State.setCrc_inIsr (v : Word16) : (s.setCrc v).inIsr = s.inIsr := rfl
@[simp] theorem State.setCrc_mseq (v : Word16) : (s.setCrc v).mseq = s.mseq := rfl
@[simp] theorem State.setCrc_epoch (v : Word16) : (s.setCrc v).epoch = s.epoch := rfl

/-! ### raiseFrameReady -/

@[simp] theorem State.raiseFrameReady_cfg : s.raiseFrameReady.cfg = s.cfg := rfl
@[simp] theorem State.raiseFrameReady_env : s.raiseFrameReady.env = s.env := rfl
@[simp] theorem State.raiseFrameReady_out : s.raiseFrameReady.out = s.out := rfl
@[simp] theorem State.raiseFrameReady_syn2 : s.raiseFrameReady.syn2 = s.syn2 := rfl
@[simp] theorem State.raiseFrameReady_syn1 : s.raiseFrameReady.syn1 = s.syn1 := rfl
@[simp] theorem State.raiseFrameReady_syn0 : s.raiseFrameReady.syn0 = s.syn0 := rfl
@[simp] theorem State.raiseFrameReady_crc : s.raiseFrameReady.crc = s.crc := rfl
@[simp] theorem State.raiseFrameReady_rsp : s.raiseFrameReady.rsp = s.rsp := rfl
@[simp] theorem State.raiseFrameReady_session : s.raiseFrameReady.session = .frameReady := rfl
@[simp] theorem State.raiseFrameReady_frameReady : s.raiseFrameReady.frameReady = true := rfl
@[simp] theorem State.raiseFrameReady_error : s.raiseFrameReady.error = s.error := rfl
@[simp] theorem State.raiseFrameReady_cursor : s.raiseFrameReady.cursor = s.cursor := rfl
@[simp] theorem State.raiseFrameReady_buf : s.raiseFrameReady.buf = s.buf := rfl
@[simp] theorem State.raiseFrameReady_tab : s.raiseFrameReady.tab = s.tab := rfl
@[simp] theorem State.raiseFrameReady_pendSfd : s.raiseFrameReady.pendSfd = s.pendSfd := rfl
@[simp] theorem State.raiseFrameReady_pendByte : s.raiseFrameReady.pendByte = s.pendByte := rfl
@[simp] theorem State.raiseFrameReady_pendOvf : s.raiseFrameReady.pendOvf = s.pendOvf := rfl
@[simp] theorem State.raiseFrameReady_pendData : s.raiseFrameReady.pendData = s.pendData := rfl
@[simp] theorem State.raiseFrameReady_inIsr : s.raiseFrameReady.inIsr = s.inIsr := rfl
@[simp] theorem State.raiseFrameReady_mseq : s.raiseFrameReady.mseq = s.mseq := rfl
@[simp] theorem State.raiseFrameReady_epoch : s.raiseFrameReady.epoch = s.epoch := rfl

/-! ### clearFlags -/

@[simp] theorem State.clearFlags_cfg : s.clearFlags.cfg = s.cfg := rfl
@[simp] theorem State.clearFlags_env : s.clearFlags.env = s.env := rfl
@[simp] theorem State.clearFlags_out : s.clearFlags.out = s.out := rfl
@[simp] theorem State.clearFlags_syn2 : s.clearFlags.syn2 = s.syn2 := rfl
@[simp] theorem State.clearFlags_syn1 : s.clearFlags.syn1 = s.syn1 := rfl
@[simp] theorem State.clearFlags_syn0 : s.clearFlags.syn0 = s.syn0 := rfl
@[simp] theorem State.clearFlags_crc : s.clearFlags.crc = s.crc := rfl
@[simp] theorem State.clearFlags_rsp : s.clearFlags.rsp = s.rsp := rfl
@[simp] theorem State.clearFlags_session : s.clearFlags.session = s.session := rfl
@[simp] theorem State.clearFlags_frameReady : s.clearFlags.frameReady = false := rfl
@[simp] theorem State.clearFlags_error : s.clearFlags.error = false := rfl
@[simp] theorem State.clearFlags_cursor : s.clearFlags.cursor = s.cursor := rfl
@[simp] theorem State.clearFlags_buf : s.clearFlags.buf = s.buf := rfl
@[simp] theorem State.clearFlags_tab : s.clearFlags.tab = s.tab := rfl
@[simp] theorem State.clearFlags_pendSfd : s.clearFlags.pendSfd = s.pendSfd := rfl
@[simp] theorem State.clearFlags_pendByte : s.clearFlags.pendByte = s.pendByte := rfl
@[simp] theorem State.clearFlags_pendOvf : s.clearFlags.pendOvf = s.pendOvf := rfl
@[simp] theorem State.clearFlags_pendData : s.clearFlags.pendData = s.pendData := rfl
@[simp] theorem State.clearFlags_inIsr : s.clearFlags.inIsr = s.inIsr := rfl
@[simp] theorem State.clearFlags_mseq : s.clearFlags.mseq = s.mseq := rfl
@[simp] theorem State.clearFlags_epoch : s.clearFlags.epoch = s.epoch := rfl

/-! ### clearReady -/

@[simp] theorem State.clearReady_cfg : s.clearReady.cfg = s.cfg := rfl
@[simp] theorem State.clearReady_env : s.clearReady.env = s.env := rfl
@[simp] theorem State.clearReady_out : s.clearReady.out = s.out := rfl
@[simp] theorem State.clearReady_syn2 : s.clearReady.syn2 = s.syn2 := rfl
@[simp] theorem State.clearReady_syn1 : s.clearReady.syn1 = s.syn1 := rfl
@[simp] theorem State.clearReady_syn0 : s.clearReady.syn0 = s.syn0 := rfl
@[simp] theorem State.clearReady_crc : s.clearReady.crc = s.crc := rfl
@[simp] theorem State.clearReady_rsp : s.clearReady.rsp = s.rsp := rfl
@[simp] theorem State.clearReady_session : s.clearReady.session = if s.session = .frameReady then .idle else s.session := rfl
@[simp] theorem State.clearReady_frameReady : s.clearReady.frameReady = false := rfl
@[simp] theorem State.clearReady_error : s.clearReady.error = s.error := rfl
@[simp] theorem State.clearReady_cursor : s.clearReady.cursor = s.cursor := rfl
@[simp] theorem State.clearReady_buf : s.clearReady.buf = s.buf := rfl
@[simp] theorem State.clearReady_tab : s.clearReady.tab = s.tab := rfl
@[simp] theorem State.clearReady_pendSfd : s.clearReady.pendSfd = s.pendSfd := rfl
@[simp] theorem State.clearReady_pendByte : s.clearReady.pendByte = s.pendByte := rfl
@[simp] theorem State.clearReady_pendOvf : s.clearReady.pendOvf = s.pendOvf := rfl
@[simp] theorem State.clearReady_pendData : s.clearReady.pendData = s.pendData := rfl
@[simp] theorem State.clearReady_inIsr : s.clearReady.inIsr = s.inIsr := rfl
@[simp] theorem State.clearReady_mseq : s.clearReady.mseq = s.mseq := rfl
@[simp] theorem State.clearReady_epoch : s.clearReady.epoch = s.epoch := rfl

/-! ### raiseOverflow -/

@[simp] theorem State.raiseOverflow_cfg : s.raiseOverflow.cfg = s.cfg := rfl
@[simp] theorem State.raiseOverflow_env : s.raiseOverflow.env = s.env := rfl
@[simp] theorem State.raiseOverflow_out : s.raiseOverflow.out = s.out := rfl
@[simp] theorem State.raiseOverflow_syn2 : s.raiseOverflow.syn2 = s.syn2 := rfl
@[simp] theorem State.raiseOverflow_syn1 : s.raiseOverflow.syn1 = s.syn1 := rfl
@[simp] theorem State.raiseOverflow_syn0 : s.raiseOverflow.syn0 = s.syn0 := rfl
@[simp] theorem State.raiseOverflow_crc : s.raiseOverflow.crc = s.crc := rfl
@[simp] theorem State.raiseOverflow_rsp : s.raiseOverflow.rsp = s.rsp := rfl
@[simp] theorem State.raiseOverflow_session : s.raiseOverflow.session = .overflowError := rfl
@[simp] theorem State.raiseOverflow_frameReady : s.raiseOverflow.frameReady = s.frameReady := rfl
@[simp] theorem State.raiseOverflow_error : s.raiseOverflow.error = true := rfl
@[simp] theorem State.raiseOverflow_cursor : s.raiseOverflow.cursor = 0 := rfl
@[simp] theorem State.raiseOverflow_buf : s.raiseOverflow.buf = s.buf := rfl
@[simp] theorem State.raiseOverflow_tab : s.raiseOverflow.tab = s.tab := rfl
@[simp] theorem State.raiseOverflow_pendSfd : s.raiseOverflow.pendSfd = s.pendSfd := rfl
@[simp] theorem State.raiseOverflow_pendByte : s.raiseOverflow.pendByte = s.pendByte := rfl
@[simp] theorem State.raiseOverflow_pendOvf : s.raiseOverflow.pendOvf = s.pendOvf := rfl
@[simp] theorem State.raiseOverflow_pendData : s.raiseOverflow.pendData = s.pendData := rfl
@[simp] theorem State.raiseOverflow_inIsr : s.raiseOverflow.inIsr = s.inIsr := rfl
@[simp] theorem State.raiseOverflow_mseq : s.raiseOverflow.mseq = s.mseq := rfl
@[simp] theorem State.raiseOverflow_epoch : s.raiseOverflow.epoch = s.epoch := rfl

/-! ### calSnapshot -/

@[simp] theorem State.calSnapshot_cfg (ch : Nat) (hz : Word32) : (s.calSnapshot ch hz).cfg = s.cfg := rfl
@[simp] theorem State.calSnapshot_env (ch : Nat) (hz : Word32) : (s.calSnapshot ch hz).env = s.env.afterCal := rfl
@[simp] theorem State.calSnapshot_out (ch : Nat) (hz : Word32) : (s.calSnapshot ch hz).out = s.out := rfl
@[simp] theorem State.calSnapshot_syn2 (ch : Nat) (hz : Word32) : (s.calSnapshot ch hz).syn2 = s.syn2 := rfl
@[simp] theorem State.calSnapshot_syn1 (ch : Nat) (hz : Word32) : (s.calSnapshot ch hz).syn1 = s.syn1 := rfl
@[simp] theorem State.calSnapshot_syn0 (ch : Nat) (hz : Word32) : (s.calSnapshot ch hz).syn0 = s.syn0 := rfl
@[simp] theorem State.calSnapshot_crc (ch : Nat) (hz : Word32) : (s.calSnapshot ch hz).crc = s.crc := rfl
@[simp] theorem State.calSnapshot_rsp (ch : Nat) (hz : Word32) : (s.calSnapshot ch hz).rsp = s.rsp := rfl
@[simp] theorem State.calSnapshot_session (ch : Nat) (hz : Word32) : (s.calSnapshot ch hz).session = s.session := rfl
@[simp] theorem State.calSnapshot_frameReady (ch : Nat) (hz : Word32) : (s.calSnapshot ch hz).frameReady = s.frameReady := rfl
@[simp] theorem State.calSnapshot_error (ch : Nat) (hz : Word32) : (s.calSnapshot ch hz).error = s.error := rfl
@[simp] theorem State.calSnapshot_cursor (ch : Nat) (hz : Word32) : (s.calSnapshot ch hz).cursor = s.cursor := rfl
@[simp] theorem State.calSnapshot_buf (ch : Nat) (hz : Word32) : (s.calSnapshot ch hz).buf = s.buf := rfl
@[simp] theorem State.calSnapshot_pendSfd (ch : Nat) (hz : Word32) : (s.calSnapshot ch hz).pendSfd = s.pendSfd := rfl
@[simp] theorem State.calSnapshot_pendByte (ch : Nat) (hz : Word32) : (s.calSnapshot ch hz).pendByte = s.pendByte := rfl
@[simp] theorem State.calSnapshot_pendOvf (ch : Nat) (hz : Word32) : (s.calSnapshot ch hz).pendOvf = s.pendOvf := rfl
@[simp] theorem State.calSnapshot_pendData (ch : Nat) (hz : Word32) : (s.calSnapshot ch hz).pendData = s.pendData := rfl
@[simp] theorem State.calSnapshot_inIsr (ch : Nat) (hz : Word32) : (s.calSnapshot ch hz).inIsr = s.inIsr := rfl
@[simp] theorem State.calSnapshot_mseq (ch : Nat) (hz : Word32) : (s.calSnapshot ch hz).mseq = s.mseq := rfl
@[simp] theorem State.calSnapshot_epoch (ch : Nat) (hz : Word32) : (s.calSnapshot ch hz).epoch = s.epoch := rfl

/-! ### calSample -/

@[simp] theorem State.calSample_cfg (ch : Nat) : (s.calSample ch).cfg = s.cfg := rfl
@[simp] theorem State.calSample_env (ch : Nat) : (s.calSample ch).env = s.env.afterRssi := rfl
@[simp] theorem State.calSample_out (ch : Nat) : (s.calSample ch).out = s.out := rfl
@[simp] theorem State.calSample_syn2 (ch : Nat) : (s.calSample ch).syn2 = s.syn2 := rfl
@[simp] theorem State.calSample_syn1 (ch : Nat) : (s.calSample ch).syn1 = s.syn1 := rfl
@[simp] theorem State.calSample_syn0 (ch : Nat) : (s.calSample ch).syn0 = s.syn0 := rfl
@[simp] theorem State.calSample_crc (ch : Nat) : (s.calSample ch).crc = s.crc := rfl
@[simp] theorem State.calSample_rsp (ch : Nat) : (s.calSample ch).rsp = s.rsp := rfl
@[simp] theorem State.calSample_session (ch : Nat) : (s.calSample ch).session = s.session := rfl
@[simp] theorem State.calSample_frameReady (ch : Nat) : (s.calSample ch).frameReady = s.frameReady := rfl
@[simp] theorem State.calSample_error (ch : Nat) : (s.calSample ch).error = s.error := rfl
@[simp] theorem State.calSample_cursor (ch : Nat) : (s.calSample ch).cursor = s.cursor := rfl
@[simp] theorem State.calSample_buf (ch : Nat) : (s.calSample ch).buf = s.buf := rfl
@[simp] theorem State.calSample_tab (ch : Nat) : (s.calSample ch).tab = Sparse.put s.tab ch { s.entry ch with current := normRssi s.env.rssi, max := 0 } := rfl
@[simp] theorem State.calSample_pendSfd (ch : Nat) : (s.calSample ch).pendSfd = s.pendSfd := rfl
@[simp] theorem State.calSample_pendByte (ch : Nat) : (s.calSample ch).pendByte = s.pendByte := rfl
@[simp] theorem State.calSample_pendOvf (ch : Nat) : (s.calSample ch).pendOvf = s.pendOvf := rfl
@[simp] theorem State.calSample_pendData (ch : Nat) : (s.calSample ch).pendData = s.pendData := rfl
@[simp] theorem State.calSample_inIsr (ch : Nat) : (s.calSample ch).inIsr = s.inIsr := rfl
@[simp] theorem State.calSample_mseq (ch : Nat) : (s.calSample ch).mseq = s.mseq := rfl
@[simp] theorem State.calSample_epoch (ch : Nat) : (s.calSample ch).epoch = s.epoch := rfl

/-! ### sweepSample -/

@[simp] theorem State.sweepSample_cfg (ch : Nat) : (s.sweepSample ch).cfg = s.cfg := rfl
@[simp] theorem State.sweepSample_env (ch : Nat) : (s.sweepSample ch).env = s.env.afterRssi := rfl
@[simp] theorem State.sweepSample_out (ch : Nat) : (s.sweepSample ch).out = s.out := rfl
@[simp] theorem State.sweepSample_syn2 (ch : Nat) : (s.sweepSample ch).syn2 = s.syn2 := rfl
@[simp] theorem State.sweepSample_syn1 (ch : Nat) : (s.sweepSample ch).syn1 = s.syn1 := rfl
@[simp] theorem State.sweepSample_syn0 (ch : Nat) : (s.sweepSample ch).syn0 = s.syn0 := rfl
@[simp] theorem State.sweepSample_crc (ch : Nat) : (s.sweepSample ch).crc = s.crc := rfl
@[simp] theorem State.sweepSample_rsp (ch : Nat) : (s.sweepSample ch).rsp = s.rsp := rfl
@[simp] theorem State.sweepSample_session (ch : Nat) : (s.sweepSample ch).session = s.session := rfl
@[simp] theorem State.sweepSample_frameReady (ch : Nat) : (s.sweepSample ch).frameReady = s.frameReady := rfl
@[simp] theorem State.sweepSample_error (ch : Nat) : (s.sweepSample ch).error = s.error := rfl
@[simp] theorem State.sweepSample_cursor (ch : Nat) : (s.sweepSample ch).cursor = s.cursor := rfl
@[simp] theorem State.sweepSample_buf (ch : Nat) : (s.sweepSample ch).buf = s.buf := rfl
@[simp] theorem State.sweepSample_pendSfd (ch : Nat) : (s.sweepSample ch).pendSfd = s.pendSfd := rfl
@[simp] theorem State.sweepSample_pendByte (ch : Nat) : (s.sweepSample ch).pendByte = s.pendByte := rfl
@[simp] theorem State.sweepSample_pendOvf (ch : Nat) : (s.sweepSample ch).pendOvf = s.pendOvf := rfl
@[simp] theorem State.sweepSample_pendData (ch : Nat) : (s.sweepSample ch).pendData = s.pendData := rfl
@[simp] theorem State.sweepSample_inIsr (ch : Nat) : (s.sweepSample ch).inIsr = s.inIsr := rfl
@[simp] theorem State.sweepSample_mseq (ch : Nat) : (s.sweepSample ch).mseq = s.mseq := rfl
@[simp] theorem State.sweepSample_epoch (ch : Nat) : (s.sweepSample ch).epoch = s.epoch := rfl

/-! ### sweepChannel -/

@[simp] theorem State.sweepChannel_cfg (k : Nat) : (s.sweepChannel k).cfg = s.cfg := rfl
@[simp] theorem State.sweepChannel_env (k : Nat) : (s.sweepChannel k).env = s.env := rfl
@[simp] theorem State.sweepChannel_out (k : Nat) : (s.sweepChannel k).out = s.out := rfl
@[simp] theorem State.sweepChannel_syn2 (k : Nat) : (s.sweepChannel k).syn2 = s.syn2 := rfl
@[simp] theorem State.sweepChannel_syn1 (k : Nat) : (s.sweepChannel k).syn1 = s.syn1 := rfl
@[simp] theorem State.sweepChannel_syn0 (k : Nat) : (s.sweepChannel k).syn0 = s.syn0 := rfl
@[simp] theorem State.sweepChannel_crc (k : Nat) : (s.sweepChannel k).crc = s.crc := rfl
@[simp] theorem State.sweepChannel_rsp (k : Nat) : (s.sweepChannel k).rsp = s.rsp := rfl
@[simp] theorem State.sweepChannel_session (k : Nat) : (s.sweepChannel k).session = s.session := rfl
@[simp] theorem State.sweepChannel_frameReady (k : Nat) : (s.sweepChannel k).frameReady = s.frameReady := rfl
@[simp] theorem State.sweepChannel_error (k : Nat) : (s.sweepChannel k).error = s.error := rfl
@[simp] theorem State.sweepChannel_cursor (k : Nat) : (s.sweepChannel k).cursor = s.cursor := rfl
@[simp] theorem State.sweepChannel_buf (k : Nat) : (s.sweepChannel k).buf = s.buf := rfl
@[simp] theorem State.sweepChannel_tab (k : Nat) : (s.sweepChannel k).tab = s.tab := rfl
@[simp] theorem State.sweepChannel_pendSfd (k : Nat) : (s.sweepChannel k).pendSfd = s.pendSfd := rfl
@[simp] theorem State.sweepChannel_pendByte (k : Nat) : (s.sweepChannel k).pendByte = s.pendByte := rfl
@[simp] theorem State.sweepChannel_pendOvf (k : Nat) : (s.sweepChannel k).pendOvf = s.pendOvf := rfl
@[simp] theorem State.sweepChannel_pendData (k : Nat) : (s.sweepChannel k).pendData = s.pendData := rfl
@[simp] theorem State.sweepChannel_inIsr (k : Nat) : (s.sweepChannel k).inIsr = s.inIsr := rfl
@[simp] theorem State.sweepChannel_mseq (k : Nat) : (s.sweepChannel k).mseq = { s.mseq with chan := k, n := 0, step := if k < s.cfg.numChannels then .s0Syn else .sEnd } := rfl
@[simp] theorem State.sweepChannel_epoch (k : Nat) : (s.sweepChannel k).epoch = s.epoch := rfl

end Sys2Proof.Machine
end

