-- ==== Sys2Proof/Laws/Stores.lean ====
section
/-! SUPPORT. The sparse stores: what a write does to each key, that every write keeps the canonical form, and that the form
determines the contents. -/

namespace Sys2Proof.Machine

variable {α : Type}

@[simp] theorem Sparse.get?_put_same (m : List (Nat × α)) (a : Nat) (v : α) :
    Sparse.get? (Sparse.put m a v) a = some v := by
  induction m with
  | nil => simp [Sparse.put, Sparse.get?]
  | cons c m ih =>
    obtain ⟨k, w⟩ := c
    unfold Sparse.put
    split
    · simp [Sparse.get?]
    · split
      · simp [Sparse.get?]
      · rename_i h
        simp [Sparse.get?, Ne.symm h, ih]

theorem Sparse.get?_put_other (m : List (Nat × α)) {a b : Nat} (v : α) (h : b ≠ a) :
    Sparse.get? (Sparse.put m a v) b = Sparse.get? m b := by
  induction m with
  | nil => simp [Sparse.put, Sparse.get?, Ne.symm h]
  | cons c m ih =>
    obtain ⟨k, w⟩ := c
    unfold Sparse.put
    split
    · simp [Sparse.get?, Ne.symm h]
    · split
      · rename_i hk
        subst hk
        simp [Sparse.get?, Ne.symm h]
      · simp [Sparse.get?, ih]

theorem Sparse.wf_put (hi : Nat) (m : List (Nat × α)) (lo a : Nat) (v : α)
    (hm : Sparse.wf hi lo m = true) (hlo : lo ≤ a) (ha : a < hi) : Sparse.wf hi lo (Sparse.put m a v) = true := by
  induction m generalizing lo with
  | nil => simp [Sparse.put, Sparse.wf, hlo, ha]
  | cons c m ih =>
    obtain ⟨k, w⟩ := c
    simp only [Sparse.wf, Bool.and_eq_true, decide_eq_true_eq] at hm
    unfold Sparse.put
    split
    · simp only [Sparse.wf, Bool.and_eq_true, decide_eq_true_eq]
      exact ⟨⟨hlo, ha⟩, ⟨by omega, hm.1.2⟩, hm.2⟩
    · split
      · rename_i hk
        subst hk
        simp only [Sparse.wf, Bool.and_eq_true, decide_eq_true_eq]
        exact ⟨⟨hlo, ha⟩, hm.2⟩
      · simp only [Sparse.wf, Bool.and_eq_true, decide_eq_true_eq]
        exact ⟨hm.1, ih (k + 1) hm.2 (by omega)⟩

theorem Sparse.get?_below (hi : Nat) (m : List (Nat × α)) (lo a : Nat) (hm : Sparse.wf hi lo m = true) (ha : a < lo) :
    Sparse.get? m a = none := by
  induction m generalizing lo with
  | nil => rfl
  | cons c m ih =>
    obtain ⟨k, w⟩ := c
    simp only [Sparse.wf, Bool.and_eq_true, decide_eq_true_eq] at hm
    have hk : k ≠ a := by omega
    simp only [Sparse.get?, hk, if_false]
    exact ih (k + 1) hm.2 (by omega)

/-- Every buffer write inside the buffer keeps the canonical form. -/
theorem Memory.wf_bufWrite (s : State) (i : Nat) (v : Byte) (h : Memory.wf s.buf = true) (hi : i < frameLen) :
    Memory.wf (s.bufWrite i v).buf = true :=
  Sparse.wf_put frameLen s.buf 0 i v h (Nat.zero_le _) hi

/-- Every table write inside the table keeps the canonical form. -/
theorem Table.wf_setEntry (s : State) (n ch : Nat) (e : Entry) (h : Table.wf n s.tab = true) (hi : ch < n) :
    Table.wf n (s.setEntry ch e).tab = true :=
  Sparse.wf_put n s.tab 0 ch e h (Nat.zero_le _) hi

/-- The buffer after reset is in canonical form. -/
theorem Memory.wf_reset : Memory.wf State.reset.buf = true := rfl

/-- The table after reset is in canonical form. -/
theorem Table.wf_reset : Table.wf State.reset.cfg.numChannels State.reset.tab = true := rfl

@[simp] theorem State.bufRead_bufWrite_same (s : State) (i : Nat) (v : Byte) : (s.bufWrite i v).bufRead i = v := by
  simp [State.bufRead]

theorem State.bufRead_bufWrite_other (s : State) {i j : Nat} (v : Byte) (h : j ≠ i) :
    (s.bufWrite i v).bufRead j = s.bufRead j := by
  simp [State.bufRead, Sparse.get?_put_other _ _ h]

@[simp] theorem State.entry_setEntry_same (s : State) (ch : Nat) (e : Entry) : (s.setEntry ch e).entry ch = e := by
  simp [State.entry]

theorem State.entry_setEntry_other (s : State) {ch k : Nat} (e : Entry) (h : k ≠ ch) :
    (s.setEntry ch e).entry k = s.entry k := by
  simp [State.entry, Sparse.get?_put_other _ _ h]

/-- Writing a word made of three bytes writes the three bytes. -/
theorem State.synWrite_bytes (s : State) (a b c : Byte) :
    s.synWrite (a ++ b ++ c) = { s with syn2 := a, syn1 := b, syn0 := c } := by
  have h2 : (a ++ b ++ c).extractLsb' 16 8 = a := extract_top a b c
  have h1 : (a ++ b ++ c).extractLsb' 8 8 = b := extract_middle a b c
  have h0 : (a ++ b ++ c).extractLsb' 0 8 = c := extract_low (a ++ b) c
  unfold State.synWrite
  rw [h2, h1, h0]

/-- The synthesizer word after a write is what was written. -/
theorem State.syn_synWrite (s : State) (w : Word24) : (s.synWrite w).syn = w := by
  have key : (w.extractLsb' 16 8 ++ w.extractLsb' 8 8 : BitVec (8 + 8)) = w.extractLsb' 8 16 := by
    apply BitVec.eq_of_getLsbD_eq
    intro i hi
    simp only [BitVec.getLsbD_append, BitVec.getLsbD_extractLsb']
    split
    · simp [*]
    · simp [show i - 8 < 8 by omega, hi, show 16 + (i - 8) = 8 + i by omega]
  unfold State.syn State.synWrite
  dsimp only
  rw [key]
  exact append_parts (m := 16) (n := 8) w

/-- Zero-extending three bytes puts a zero byte above them. -/
theorem setWidth_threeBytes (a b c : Byte) : (a ++ b ++ c).setWidth 32 = (0#8 ++ a ++ b ++ c : Word32) := by
  apply BitVec.eq_of_getLsbD_eq
  intro i hi
  simp only [BitVec.getLsbD_append, BitVec.getLsbD_setWidth, hi, decide_true, Bool.true_and]
  repeat' split
  · rfl
  · rfl
  · rfl
  · simpa using BitVec.getLsbD_of_ge a (i - 8 - 8) (by omega)

/-- A byte read depends on the buffer and the epoch alone. -/
theorem State.bufRead_congr {s t : State} (hb : t.buf = s.buf) (he : t.epoch = s.epoch) (i : Nat) :
    t.bufRead i = s.bufRead i := by
  simp [State.bufRead, hb, he]

/-- An entry read depends on the table and the epoch alone. -/
theorem State.entry_congr {s t : State} (hb : t.tab = s.tab) (he : t.epoch = s.epoch) (ch : Nat) :
    t.entry ch = s.entry ch := by
  simp [State.entry, hb, he]

end Sys2Proof.Machine
end

