-- ==== Sys2Proof/Laws/Frame.lean ====
section
/-! SUPPORT. What the parts of the byte handler do: the read of the data port, the store of a byte, the completion of a frame. -/

namespace Sys2Proof.Machine

theorem frameLen_eq : frameLen = 11 := rfl

theorem idxRssi_eq : idxRssi = 8 := rfl

theorem idxLqi_eq : idxLqi = 9 := rfl

theorem idxFoe_eq : idxFoe = 10 := rfl

/-- A free draw is consumed exactly where the byte has no value. -/
theorem State.rxRead_eq (s : State) :
    s.rxRead = { s with
      out := { s.out with rxRd := true }, env := if s.pendData = none then s.env.afterRx else s.env } := by
  unfold State.rxRead
  cases s.pendData <;> rfl

/-- Storing a byte writes the buffer and nothing else. -/
theorem State.appendByte_eq (s : State) (r : Byte) : s.appendByte r = { s with buf := (s.appendByte r).buf } := by
  unfold State.appendByte
  dsimp only
  split <;> rfl

/-- What is listed at the cursor after a byte was stored. -/
theorem State.get?_appendByte_same (s : State) (r : Byte) :
    Sparse.get? (s.appendByte r).buf s.cursor.toNat = some (if s.cursor.toNat < dataBytes then rev8 r else r) := by
  unfold State.appendByte
  dsimp only
  split <;> simp

/-- What is listed elsewhere after a byte was stored. -/
theorem State.get?_appendByte_other (s : State) (r : Byte) {j : Nat} (h : j ≠ s.cursor.toNat) :
    Sparse.get? (s.appendByte r).buf j = Sparse.get? s.buf j := by
  unfold State.appendByte
  dsimp only
  split <;> simp [Sparse.get?_put_other _ _ h]

/-- Storing a byte below the end of the buffer keeps the canonical form. -/
theorem State.wf_appendByte (s : State) (r : Byte) (h : Memory.wf s.buf = true) (hc : s.cursor.toNat < frameLen) :
    Memory.wf (s.appendByte r).buf = true := by
  unfold State.appendByte
  dsimp only
  split
  · exact Memory.wf_bufWrite _ _ _ (Memory.wf_bufWrite s _ r h hc) hc
  · exact Memory.wf_bufWrite s _ r h hc

/-- The completion of a frame: everything but the buffer, which `complete_get?` gives. -/
theorem State.complete_eq (s : State) :
    s.complete = { s with
      buf := s.complete.buf, session := .frameReady, frameReady := true
      out := { s.out with strobe := some .idle }
      env := (s.env.pollIsr .idle s.cfg.pollMaxIsr).afterFoe } := rfl

/-- What each byte of the buffer is after the completion of a frame. -/
theorem State.complete_get? (s : State) (j : Nat) :
    Sparse.get? s.complete.buf j =
      if j = idxFoe then some (s.env.pollIsr .idle s.cfg.pollMaxIsr).foe
      else if j = idxLqi then some (s.bufRead idxLqi &&& 0x7F)
      else if j = idxRssi then some (normRssi (s.bufRead idxRssi))
      else Sparse.get? s.buf j := by
  have h1 : Sparse.get? s.complete.buf j =
      Sparse.get? (Sparse.put (Sparse.put (Sparse.put s.buf idxRssi (normRssi (s.bufRead idxRssi)))
        idxLqi ((s.bufWrite idxRssi (normRssi (s.bufRead idxRssi))).bufRead idxLqi &&& 0x7F))
        idxFoe (s.env.pollIsr .idle s.cfg.pollMaxIsr).foe) j := rfl
  rw [h1, State.bufRead_bufWrite_other s _ (show idxLqi ≠ idxRssi by decide)]
  by_cases ha : j = idxFoe
  · rw [if_pos ha, ha]
    simp
  · rw [if_neg ha, Sparse.get?_put_other _ _ ha]
    by_cases hb : j = idxLqi
    · rw [if_pos hb, hb]
      simp
    · rw [if_neg hb, Sparse.get?_put_other _ _ hb]
      by_cases hc : j = idxRssi
      · rw [if_pos hc, hc]
        simp
      · rw [if_neg hc, Sparse.get?_put_other _ _ hc]

/-- The completion of a frame keeps the canonical form. -/
theorem State.wf_complete (s : State) (h : Memory.wf s.buf = true) : Memory.wf s.complete.buf = true := by
  have h1 : Memory.wf (s.bufWrite idxRssi (normRssi (s.bufRead idxRssi))).buf = true :=
    Memory.wf_bufWrite _ _ _ h (by decide)
  exact Sparse.wf_put frameLen _ 0 idxFoe _
    (Sparse.wf_put frameLen _ 0 idxLqi _ h1 (Nat.zero_le _) (by decide)) (Nat.zero_le _) (by decide)

/-- The larger of two bytes, as a number. -/
theorem maxU8_toNat (a b : Byte) : (maxU8 a b).toNat = max a.toNat b.toNat := by
  unfold maxU8
  split <;> omega

end Sys2Proof.Machine
end

