-- ==== Sys2Proof/Laws/Step.lean ====
section
/-! SUPPORT. What the shared operations under a step can do: taking and going on with a command, polling, taking an event, and
the step itself. A later proof cites these and unfolds none of them. -/

namespace Sys2Proof.Machine

/-! ## The main sequencer -/

@[simp] theorem State.accept_word (s : State) (w : BitVec 48) (m : Micro) : (s.accept w m).mseq.word = w :=
  cmdWord_fields w

/-- A ready block with operands in range accepts the word and takes its first micro-step. -/
theorem State.runMicro_ready {s : State} {w : BitVec 48} {check : Option Refusal} {first : Micro} {micro : State → State}
    (hb : s.mseq.busy = false) (hc : check = none) :
    s.runMicro w check first micro = .next (micro (s.accept w first)) := by
  simp [State.runMicro, hb, hc]

/-- A ready block refuses an operand out of range. -/
theorem State.runMicro_refused {s : State} {w : BitVec 48} {check : Option Refusal} {first : Micro} {micro : State → State}
    {r : Refusal} (hb : s.mseq.busy = false) (hc : check = some r) : s.runMicro w check first micro = .refused r := by
  simp [State.runMicro, hb, hc]

/-- A command in progress takes its next micro-step. -/
theorem State.runMicro_going {s : State} {w : BitVec 48} {check : Option Refusal} {first : Micro} {micro : State → State}
    (hb : s.mseq.busy = true) (hw : s.mseq.word = w) : s.runMicro w check first micro = .next (micro s) := by
  simp [State.runMicro, hb, hw]

/-- The three ways to a next state: acceptance with the first micro-step, the next micro-step of the word in progress, or
nothing, because another word is in progress. -/
theorem State.runMicro_next {s t : State} {w : BitVec 48} {check : Option Refusal} {first : Micro} {micro : State → State}
    (h : s.runMicro w check first micro = .next t) :
    (s.mseq.busy = false ∧ check = none ∧ t = micro (s.accept w first)) ∨
    (s.mseq.busy = true ∧ s.mseq.word = w ∧ t = micro s) ∨
    (s.mseq.busy = true ∧ s.mseq.word ≠ w ∧ t = s) := by
  unfold State.runMicro at h
  split at h
  · rename_i hb
    split at h
    · rename_i hw
      cases h
      exact .inr (.inl ⟨hb, hw, rfl⟩)
    · rename_i hw
      cases h
      exact .inr (.inr ⟨hb, hw, rfl⟩)
  · rename_i hb
    split at h
    · cases h
    · cases h
      exact .inl ⟨by simpa using hb, rfl, rfl⟩

/-- Where a command stands, as equations. -/
theorem State.standsAt_iff (s : State) (w : BitVec 48) (m : Micro) :
    s.standsAt w m = true ↔ s.mseq.busy = true ∧ s.mseq.word = w ∧ s.mseq.step = m := by
  simp [State.standsAt, and_assoc]

/-- A poll either ends the wait or goes on to the tick; its draw is consumed in both cases. -/
theorem State.waitPoll_cases (s : State) (m : RMode) (limit : Nat) (tick : Micro) (done : State → State) :
    ((s.env.mode = m ∨ s.mseq.n = limit) ∧
      s.waitPoll m limit tick done = done { s with env := s.env.afterMode }) ∨
    (s.env.mode ≠ m ∧ s.mseq.n ≠ limit ∧
      s.waitPoll m limit tick done = { s with env := s.env.afterMode, mseq := { s.mseq with step := tick } }) := by
  unfold State.waitPoll
  split
  · exact .inl ⟨‹_›, rfl⟩
  · rename_i h
    push Not at h
    exact .inr ⟨h.1, h.2, rfl⟩

/-- The interrupt-context wait touches the mode script and the draw counter only. -/
theorem Env.pollIsr_frame (m : RMode) (limit : Nat) (e : Env) :
    e.pollIsr m limit = { e with modes := (e.pollIsr m limit).modes, drawn := (e.pollIsr m limit).drawn } := by
  induction limit generalizing e with
  | zero => rfl
  | succ n ih =>
    unfold Env.pollIsr
    split
    · rfl
    · rw [ih]
      rfl

/-! ## Each command as a run of the sequencer -/

theorem exec_tune (s : State) (hz : Word32) : exec (.tune hz) s =
    s.runMicro (cmdWord 0x01 0 hz) (checkHz s.cfg hz) .t1 (tuneMicro hz) := rfl

theorem exec_cal (s : State) (ch : Byte) (hz : Word32) : exec (.cal ch hz) s =
    s.runMicro (cmdWord 0x02 ch hz) (checkCal s.cfg ch hz) .c1 (calMicro ch hz) := rfl

theorem exec_tunech (s : State) (ch : Byte) : exec (.tunech ch) s =
    s.runMicro (cmdWord 0x03 ch 0) (checkCh s.cfg ch) .u1 (tunechMicro ch) := rfl

theorem exec_sweep (s : State) : exec .sweep s =
    s.runMicro (cmdWord 0x04 0 0) none (sweepFirst s.cfg) sweepMicro := rfl

theorem exec_clrrdy (s : State) : exec .clrrdy s =
    s.runMicro (cmdWord 0x08 0 0) none .only (fun t => t.clearReady.finish 0) := rfl

theorem exec_rdbuf (s : State) (i : Byte) : exec (.rdbuf i) s =
    s.runMicro (cmdWord 0x09 i 0) (checkIndex i) .only (fun t => t.finish ((t.bufRead i.toNat).setWidth 32)) := rfl

theorem exec_rdstat (s : State) : exec .rdstat s =
    s.runMicro (cmdWord 0x0A 0 0) none .only (fun t => t.finish t.status) := rfl

theorem exec_rdsyn (s : State) : exec .rdsyn s =
    s.runMicro (cmdWord 0x0B 0 0) none .only (fun t => t.finish (t.syn.setWidth 32)) := rfl

theorem exec_rdchf (s : State) (ch : Byte) : exec (.rdchf ch) s =
    s.runMicro (cmdWord 0x0C ch 0) (checkCh s.cfg ch) .only (fun t => t.finish (t.entry ch.toNat).freq) := rfl

theorem exec_rdchs (s : State) (ch : Byte) : exec (.rdchs ch) s =
    s.runMicro (cmdWord 0x0D ch 0) (checkCh s.cfg ch) .only
      (fun t => t.finish ((t.entry ch.toNat).syn.setWidth 32)) := rfl

theorem exec_rdchc (s : State) (ch : Byte) : exec (.rdchc ch) s =
    s.runMicro (cmdWord 0x0E ch 0) (checkCh s.cfg ch) .only
      (fun t => t.finish ((t.entry ch.toNat).cal.setWidth 32)) := rfl

theorem exec_rdchr (s : State) (ch : Byte) : exec (.rdchr ch) s =
    s.runMicro (cmdWord 0x0F ch 0) (checkCh s.cfg ch) .only
      (fun t => t.finish ((t.entry ch.toNat).strengths.setWidth 32)) := rfl

theorem exec_crcclr (s : State) : exec .crcclr s =
    s.runMicro (cmdWord 0x10 0 0) none .only (fun t => (t.setCrc crcInit).finish 0) := rfl

theorem exec_crcupd (s : State) (b : Byte) : exec (.crcupd b) s =
    s.runMicro (cmdWord 0x11 0 ((0 : Word24) ++ b)) none .only
      (fun t => (t.setCrc (crcByte t.crc b)).finish ((crcByte t.crc b).setWidth 32)) := rfl

theorem exec_crcrd (s : State) : exec .crcrd s =
    s.runMicro (cmdWord 0x12 0 0) none .only (fun t => t.finish (t.crc.setWidth 32)) := rfl

/-! ## Events -/

/-- The three events that can be taken, in the order of their priority. -/
theorem State.takeEvent_cases {s u : State} {i : Instr} (h : s.takeEvent = some (i, u)) :
    (s.pendOvf = true ∧ i = .evOvf ∧ u = { s with pendOvf := false, inIsr := true }) ∨
    (s.pendOvf = false ∧ s.pendSfd = true ∧ i = .evSfd ∧ u = { s with pendSfd := false, inIsr := true }) ∨
    (s.pendOvf = false ∧ s.pendSfd = false ∧ s.pendByte = true ∧ i = .evByte s.rxData ∧
      u = { s with pendByte := false, inIsr := true }) := by
  unfold State.takeEvent at h
  split at h
  · cases h
    exact .inl ⟨‹_›, rfl, rfl⟩
  · split at h
    · cases h
      exact .inr (.inl ⟨by simp_all, ‹_›, rfl, rfl⟩)
    · split at h
      · cases h
        exact .inr (.inr ⟨by simp_all, by simp_all, ‹_›, rfl, rfl⟩)
      · cases h

/-- No event is taken exactly when no latch is set. -/
theorem State.takeEvent_none (s : State) : s.takeEvent = none ↔ s.noPending = true := by
  unfold State.takeEvent State.noPending
  cases s.pendOvf <;> cases s.pendSfd <;> cases s.pendByte <;> simp

/-! ## The step -/

@[simp] theorem State.onTurn_takeEvent_none (s : State) : s.onTurn.takeEvent = none ↔ s.noPending = true := by
  rw [State.takeEvent_none]
  rfl

/-- In the block's turn the step is the block's, from `onTurn`. -/
theorem State.select_of_blockTurn {s : State} (h : s.blockTurn = true) : s.select = s.onTurn.selectBlock := by
  unfold State.blockTurn at h
  unfold State.select State.onTurn
  split <;> simp_all

/-- In the main context's turn the step is the main context's. -/
theorem State.select_of_mainTurn {s : State} (h : s.mainTurn = true) : s.select = s.onTurn.selectMain := by
  simp only [State.mainTurn, Bool.and_eq_true] at h
  have hi : s.onTurn.inIsr = false := by
    have := h.1
    simp only [State.blockTurn, Bool.and_eq_true, Bool.not_eq_true'] at this
    exact this.1
  rw [State.select_of_blockTurn h.1]
  unfold State.selectBlock
  rw [hi, (State.onTurn_takeEvent_none s).2 h.2]
  rfl

/-- Everything a step that answers a next state can be: an arrival, a reset, a turn lost to a handler that never ended (no
run reaches that), the dispatch of an event, a micro-step, a wait, or the acceptance of a command word. -/
theorem step_cases {s t : State} (h : step s = .next t) :
    (∃ w rest, s.env.turns = .event w :: rest ∧ t = s.onTurn.arrive w) ∨
    (∃ rest, s.env.turns = .rst :: rest ∧ t = s.takeTurn.assertRst) ∨
    (s.inIsr = true ∧ t = s.onTurn) ∨
    (s.blockTurn = true ∧ s.noPending = false ∧ ∃ i u, s.onTurn.takeEvent = some (i, u) ∧ exec i u = .next t) ∨
    (s.mainTurn = true ∧ s.mseq.busy = true ∧ ∃ i, decodeCommand s.mseq.word = .ok i ∧ exec i s.onTurn = .next t) ∨
    (s.mainTurn = true ∧ s.mseq.busy = true ∧ (∃ e, decodeCommand s.mseq.word = .error e) ∧ t = s.onTurn) ∨
    (s.mainTurn = true ∧ s.mseq.busy = false ∧ s.env.cmds = [] ∧ t = s.onTurn) ∨
    (s.mainTurn = true ∧ s.mseq.busy = false ∧ ∃ w rest i, s.env.cmds = w :: rest ∧ decodeCommand w = .ok i ∧
      exec i s.onTurn.takeCommand = .next t) := by
  by_cases hb : s.blockTurn = true
  · by_cases hp : s.noPending = true
    · have hm : s.mainTurn = true := by simp [State.mainTurn, hb, hp]
      unfold step at h
      rw [State.select_of_mainTurn hm] at h
      unfold State.selectMain at h
      by_cases hz : s.mseq.busy = true
      · rw [if_pos (show s.onTurn.mseq.busy = true from hz)] at h
        cases hd : decodeCommand s.mseq.word with
        | ok i =>
          rw [show decodeCommand s.onTurn.mseq.word = .ok i from hd] at h
          exact .inr (.inr (.inr (.inr (.inl ⟨hm, hz, i, rfl, h⟩))))
        | error e =>
          rw [show decodeCommand s.onTurn.mseq.word = .error e from hd] at h
          cases h
          exact .inr (.inr (.inr (.inr (.inr (.inl ⟨hm, hz, ⟨e, rfl⟩, rfl⟩)))))
      · rw [if_neg (show ¬ s.onTurn.mseq.busy = true from hz)] at h
        have hz' : s.mseq.busy = false := by simpa using hz
        cases hc : s.env.cmds with
        | nil =>
          rw [show s.onTurn.env.cmds = [] from hc] at h
          cases h
          exact .inr (.inr (.inr (.inr (.inr (.inr (.inl ⟨hm, hz', rfl, rfl⟩))))))
        | cons w rest =>
          rw [show s.onTurn.env.cmds = w :: rest from hc] at h
          cases hd : decodeCommand w with
          | ok i =>
            simp only [hd] at h
            exact .inr (.inr (.inr (.inr (.inr (.inr (.inr ⟨hm, hz', w, rest, i, rfl, hd, h⟩))))))
          | error e =>
            simp only [hd] at h
            cases h
    · have hp' : s.noPending = false := by simpa using hp
      have hi : s.onTurn.inIsr = false := by
        simp only [State.blockTurn, Bool.and_eq_true, Bool.not_eq_true'] at hb
        exact hb.1
      unfold step at h
      rw [State.select_of_blockTurn hb] at h
      unfold State.selectBlock at h
      rw [hi] at h
      cases ht : s.onTurn.takeEvent with
      | none => exact absurd ((State.onTurn_takeEvent_none s).1 ht) hp
      | some p =>
        obtain ⟨i, u⟩ := p
        rw [ht] at h
        exact .inr (.inr (.inr (.inl ⟨hb, hp', i, u, rfl, h⟩)))
  · unfold step State.select at h
    unfold State.blockTurn at hb
    split at h
    · rename_i hs
      split at hs
      · cases hs
      · cases hs
      · unfold State.selectBlock at hs
        simp_all
      · unfold State.selectBlock at hs
        simp_all
    · rename_i u hs
      split at hs
      · cases hs
        cases h
        exact .inl ⟨_, _, ‹_›, rfl⟩
      · cases hs
        cases h
        exact .inr (.inl ⟨_, ‹_›, rfl⟩)
      · have hi : s.inIsr = true := by simp_all
        unfold State.selectBlock at hs
        rw [show s.quiet.takeTurn.inIsr = true from hi] at hs
        cases hs
        cases h
        exact .inr (.inr (.inl ⟨hi, rfl⟩))
      · have hi : s.inIsr = true := by simp_all
        unfold State.selectBlock at hs
        rw [show s.quiet.takeTurn.inIsr = true from hi] at hs
        cases hs
        cases h
        exact .inr (.inr (.inl ⟨hi, rfl⟩))
    · cases h

/-- In the block's turn with an event pending, the operation is the event taken. -/
theorem State.nextOp_of_takeEvent {s u : State} {i : Instr} (hb : s.blockTurn = true)
    (h : s.onTurn.takeEvent = some (i, u)) : s.nextOp = some i := by
  unfold State.nextOp
  rw [if_pos hb]
  rcases State.takeEvent_cases h with ⟨h1, rfl, -⟩ | ⟨h1, h2, rfl, -⟩ | ⟨h1, h2, h3, rfl, -⟩
  · rw [if_pos (show s.pendOvf = true from h1)]
  · rw [if_neg (ne_true_of_eq_false (show s.pendOvf = false from h1)), if_pos (show s.pendSfd = true from h2)]
  · rw [if_neg (ne_true_of_eq_false (show s.pendOvf = false from h1)),
      if_neg (ne_true_of_eq_false (show s.pendSfd = false from h2)), if_pos (show s.pendByte = true from h3)]
    rfl

/-- In the main context's turn the operation is the command in progress, or the word on the port. -/
theorem State.nextOp_of_mainTurn {s : State} (hm : s.mainTurn = true) :
    s.nextOp = if s.mseq.busy then (decodeCommand s.mseq.word).toOption
      else match s.env.cmds with
        | [] => none
        | w :: _ => (decodeCommand w).toOption := by
  simp only [State.mainTurn, State.noPending, Bool.and_eq_true, Bool.not_eq_true'] at hm
  obtain ⟨hb, ⟨h1, h2⟩, h3⟩ := hm
  exact (if_pos hb).trans ((if_neg (ne_true_of_eq_false h1)).trans ((if_neg (ne_true_of_eq_false h2)).trans
    ((if_neg (ne_true_of_eq_false h3)).trans rfl)))

/-- Everything a step can do to the block's items: a reset; or the step of `nextOp`, from a state that differs from `s` in the
scripts, the pulses, the latches and `in_isr` only; or nothing but to the scripts, the pulses, the latches and `pend_data`. -/
theorem step_by_nextOp {s t : State} (h : step s = .next t) :
    (s.env.turns.head? = some .rst ∧ t = s.takeTurn.assertRst) ∨
    (∃ i u, s.nextOp = some i ∧ exec i u = .next t ∧ u = { s with
      env := u.env, out := Outputs.quiet, pendSfd := u.pendSfd, pendByte := u.pendByte, pendOvf := u.pendOvf
      inIsr := u.inIsr }) ∨
    t = { s with
      env := t.env, out := Outputs.quiet, pendSfd := t.pendSfd, pendByte := t.pendByte, pendOvf := t.pendOvf
      pendData := t.pendData } := by
  rcases step_cases h with ⟨w, rest, -, rfl⟩ | ⟨rest, hr, rfl⟩ | ⟨-, rfl⟩ | ⟨hb, -, i, u, ht, he⟩ |
    ⟨hm, hz, i, hd, he⟩ | ⟨-, -, -, rfl⟩ | ⟨-, -, -, rfl⟩ | ⟨hm, hz, w, rest, i, hc, hd, he⟩
  · refine .inr (.inr ?_)
    unfold State.arrive
    split <;> rfl
  · exact .inl ⟨by rw [hr]; rfl, rfl⟩
  · exact .inr (.inr rfl)
  · refine .inr (.inl ⟨i, u, State.nextOp_of_takeEvent hb ht, he, ?_⟩)
    rcases State.takeEvent_cases ht with ⟨-, -, rfl⟩ | ⟨-, -, -, rfl⟩ | ⟨-, -, -, -, rfl⟩ <;> rfl
  · exact .inr (.inl ⟨i, _, by rw [State.nextOp_of_mainTurn hm, if_pos hz, hd]; rfl, he, rfl⟩)
  · exact .inr (.inr rfl)
  · exact .inr (.inr rfl)
  · exact .inr (.inl ⟨i, _, by
      rw [State.nextOp_of_mainTurn hm, if_neg (ne_true_of_eq_false hz), hc]
      show (decodeCommand w).toOption = some i
      rw [hd]
      rfl, he, rfl⟩)

end Sys2Proof.Machine
end

