-- ==== Sys2Proof/Laws/Radio.lean ====
section
/-! SUPPORT. The mode reads of a step, which the assumptions about the radio speak of (spec/60_exceptions.md §6): the answers
that `modesReadBy` lists are the draws the operation consumes from the mode port, no more and no fewer. -/

namespace Sys2Proof.Machine

/-! ## The polls of the interrupt context -/

/-- The wait consumes as many draws as it has answers, and nothing else. -/
theorem Env.pollIsr_eq (m : RMode) (limit : Nat) (e : Env) :
    e.pollIsr m limit = { e with
      modes := e.modes.drop (e.modesIsr m limit).length, drawn := e.drawn + (e.modesIsr m limit).length } := by
  induction limit generalizing e with
  | zero =>
    unfold Env.pollIsr Env.modesIsr Env.afterMode
    simp
  | succ n ih =>
    unfold Env.pollIsr Env.modesIsr
    split
    · unfold Env.afterMode
      simp
    · rw [ih]
      unfold Env.afterMode
      simp only [List.length_cons, List.drop_tail, Env.mk.injEq, true_and]
      omega

/-- The `k`-th answer is the `k`-th of the draws. -/
theorem Env.modesIsr_get (m : RMode) (limit : Nat) (e : Env) (k : Nat) (h : k < (e.modesIsr m limit).length) :
    (e.modesIsr m limit)[k] = RMode.ofBits (Env.peek (e.modes.drop k) (e.drawn + k)) := by
  induction limit generalizing e k with
  | zero =>
    have hk : k = 0 := by simpa [Env.modesIsr] using h
    subst hk
    simp [Env.modesIsr, Env.mode]
  | succ n ih =>
    cases k with
    | zero => simp [Env.modesIsr, Env.mode]
    | succ k =>
      by_cases hm : e.mode = m
      · simp [Env.modesIsr, hm] at h
      · have h' : k < (e.afterMode.modesIsr m n).length := by simpa [Env.modesIsr, hm] using h
        simp only [Env.modesIsr, if_neg hm, List.getElem_cons_succ]
        rw [ih e.afterMode k h']
        unfold Env.afterMode
        simp [Nat.add_comm, Nat.add_left_comm]

/-- The wait ends at the first answer that is the wanted mode: every answer before the last is another. -/
theorem Env.modesIsr_before_last (m : RMode) (limit : Nat) (e : Env) (k : Nat)
    (h : k + 1 < (e.modesIsr m limit).length) : (e.modesIsr m limit)[k]'(Nat.lt_of_succ_lt h) ≠ m := by
  induction limit generalizing e k with
  | zero => simp [Env.modesIsr] at h
  | succ n ih =>
    by_cases hm : e.mode = m
    · simp [Env.modesIsr, hm] at h
    · cases k with
      | zero => simpa [Env.modesIsr] using hm
      | succ k =>
        have h' : k + 1 < (e.afterMode.modesIsr m n).length := by simpa [Env.modesIsr, hm] using h
        simpa [Env.modesIsr, hm] using ih e.afterMode k h'

/-! ## The draws of one operation -/

/-- One poll of `TUNE` consumes one draw. -/
theorem State.waitPoll_modes (s : State) (m : RMode) (limit : Nat) (tick : Micro) (done : State → State)
    (hd : ∀ t, (done t).env = t.env) : (s.waitPoll m limit tick done).env.modes = s.env.modes.tail := by
  rcases s.waitPoll_cases m limit tick done with ⟨-, e⟩ | ⟨-, -, e⟩ <;> rw [e]
  · rw [hd]
    rfl
  · rfl

/-- A micro-step of `TUNE` reads the mode at its two polls, and nowhere else. -/
theorem tuneMicro_modes (hz : Word32) (s : State) (hb : s.mseq.busy = true) :
    (tuneMicro hz s).env.modes = s.env.modes.drop (s.modesReadBy (.tune hz)).length := by
  simp only [State.modesReadBy]
  unfold tuneMicro
  split
  case h_2 h => simp [State.waitPoll_modes s .idle s.cfg.pollMaxIdle .t2Tick (fun t => t.goto .t3) (fun _ => rfl), hb, h]
  case h_8 h =>
    simp [State.waitPoll_modes s .rx s.cfg.pollMaxRx .t7Tick (fun t => t.confirmRx.goto .t8) (fun _ => rfl), hb, h]
  all_goals simp_all

/-- A command whose micro-steps leave the mode port alone consumes no draw of it. -/
theorem State.runMicro_modes {s t : State} {w : BitVec 48} {check : Option Refusal} {first : Micro} {micro : State → State}
    (h : s.runMicro w check first micro = .next t) (hm : ∀ u : State, (micro u).env.modes = u.env.modes) :
    t.env.modes = s.env.modes := by
  rcases State.runMicro_next h with ⟨-, -, rfl⟩ | ⟨-, -, rfl⟩ | ⟨-, -, rfl⟩
  · exact hm _
  · exact hm s
  · rfl

/-- The byte handler reads the mode in the completion of a frame, and nowhere else. -/
theorem execEvByte_modes {s t : State} {b : Byte} (h : execEvByte b s = .next t) :
    t.env.modes = s.env.modes.drop (s.modesReadBy (.evByte b)).length := by
  have hmodes : s.rxRead.env.modes = s.env.modes := by
    rw [State.rxRead_eq]
    split <;> rfl
  unfold execEvByte at h
  split at h
  · rename_i hs
    have hc : s.cursor.toNat < frameLen - 1 := by
      simp only [State.storesByte, Bool.and_eq_true, decide_eq_true_eq] at hs
      exact hs.2
    have hv := State.appendByte_eq s.rxRead b
    generalize s.rxRead.appendByte b = v at h hv
    have hcur : v.cursor = s.cursor := by rw [hv]; rfl
    have henv : v.env = s.rxRead.env := by rw [hv]
    have hcfg : v.cfg = s.cfg := by rw [hv]; rfl
    rw [frameLen_eq] at hc
    have hadd : (s.cursor + 1).toNat = s.cursor.toNat + 1 := by
      rw [BitVec.toNat_add]
      simp
      omega
    dsimp only at h
    rw [hcur, hadd, frameLen_eq] at h
    split at h
    · rename_i h9
      have hcomp : s.completes = true := by
        simp only [State.completes, hs, Bool.true_and, decide_eq_true_eq, frameLen_eq]
        omega
      cases h
      rw [State.complete_eq]
      show ((v.env.pollIsr .idle v.cfg.pollMaxIsr).afterFoe).modes = _
      rw [henv, hcfg, Env.pollIsr_eq]
      show s.rxRead.env.modes.drop _ = _
      rw [hmodes]
      simp only [State.modesReadBy, hcomp, if_true]
    · rename_i h9
      have hcomp : s.completes = false := by
        simp only [State.completes, hs, Bool.true_and, decide_eq_false_iff_not, frameLen_eq]
        omega
      cases h
      show v.env.modes = _
      rw [henv, hmodes]
      simp [State.modesReadBy, hcomp]
  · rename_i hs
    have hcomp : s.completes = false := by simp [State.completes, hs]
    cases h
    simp [State.modesReadBy, hcomp]

/-- An operation consumes from the mode port as many draws as it has mode reads. In a busy block the operation is the one in
progress, as in every step of the machine. -/
theorem exec_modes {i : Instr} {s t : State} (hw : s.mseq.busy = true → i.isEvent = false → encode i = .command s.mseq.word)
    (h : exec i s = .next t) : t.env.modes = s.env.modes.drop (s.modesReadBy i).length := by
  have same : t.env.modes = s.env.modes → s.modesReadBy i = [] → t.env.modes = s.env.modes.drop (s.modesReadBy i).length :=
    fun h1 h2 => by rw [h1, h2]; rfl
  cases i with
  | tune hz =>
    rw [exec_tune] at h
    rcases State.runMicro_next h with ⟨hb, -, rfl⟩ | ⟨hb, -, rfl⟩ | ⟨hb, hne, -⟩
    · simp [State.modesReadBy, hb, tuneMicro, State.accept]
    · exact tuneMicro_modes hz s hb
    · exact absurd (PortWord.command.inj (hw hb rfl)).symm hne
  | cal ch hz =>
    rw [exec_cal] at h
    exact same (State.runMicro_modes h (fun u => by unfold calMicro; split <;> rfl)) rfl
  | tunech ch =>
    rw [exec_tunech] at h
    exact same (State.runMicro_modes h (fun u => by unfold tunechMicro; split <;> rfl)) rfl
  | sweep =>
    rw [exec_sweep] at h
    exact same (State.runMicro_modes h (fun u => by unfold sweepMicro; split <;> (try split) <;> rfl)) rfl
  | clrrdy => exact same (State.runMicro_modes ((exec_clrrdy s).symm.trans h) (fun _ => rfl)) rfl
  | rdbuf k => exact same (State.runMicro_modes ((exec_rdbuf s k).symm.trans h) (fun _ => rfl)) rfl
  | rdstat => exact same (State.runMicro_modes ((exec_rdstat s).symm.trans h) (fun _ => rfl)) rfl
  | rdsyn => exact same (State.runMicro_modes ((exec_rdsyn s).symm.trans h) (fun _ => rfl)) rfl
  | rdchf ch => exact same (State.runMicro_modes ((exec_rdchf s ch).symm.trans h) (fun _ => rfl)) rfl
  | rdchs ch => exact same (State.runMicro_modes ((exec_rdchs s ch).symm.trans h) (fun _ => rfl)) rfl
  | rdchc ch => exact same (State.runMicro_modes ((exec_rdchc s ch).symm.trans h) (fun _ => rfl)) rfl
  | rdchr ch => exact same (State.runMicro_modes ((exec_rdchr s ch).symm.trans h) (fun _ => rfl)) rfl
  | crcclr => exact same (State.runMicro_modes ((exec_crcclr s).symm.trans h) (fun _ => rfl)) rfl
  | crcupd b => exact same (State.runMicro_modes ((exec_crcupd s b).symm.trans h) (fun _ => rfl)) rfl
  | crcrd => exact same (State.runMicro_modes ((exec_crcrd s).symm.trans h) (fun _ => rfl)) rfl
  | evSfd =>
    cases h
    rfl
  | evByte b => exact execEvByte_modes h
  | evOvf =>
    cases h
    show (s.env.pollIsr .idle s.cfg.pollMaxIsr).modes = _
    rw [Env.pollIsr_eq]
    rfl

/-! ## What the assumptions say of a run -/

/-- The mode at the beginning of a step is the radio's own. -/
@[simp] theorem modeAt_begin (run : Nat → State) (radio : Nat → RMode) (k : Nat) :
    modeAt run radio ⟨k, 0⟩ = some (radio k) := rfl

/-- A byte event is presented exactly where the event presented is one. -/
theorem State.byteNext_iff (s : State) : s.byteNext = true ↔ ∃ b, s.eventNext = some (.evByte b) := by
  unfold State.byteNext State.eventNext
  split
  · simp
  · simp
  · rename_i w _ _
    unfold decodeEvent
    have hk : ∀ k : BitVec 2, k = 0 ∨ k = 1 ∨ k = 2 ∨ k = 3 := by decide
    rcases hk (evKind w) with h | h | h | h <;> simp [h, Except.toOption]
  · simp

/-- A frame-start leaves all ten byte events to come. -/
theorem bytesLeft_of_start {run : Nat → State} {left k : Nat} (h : (run k).eventNext = some .evSfd) :
    bytesLeft run left (k + 1) = dataBytes + hwStatusBytes := if_pos h

/-- Each byte event is one of those left. -/
theorem bytesLeft_of_byte {run : Nat → State} {left k : Nat} (h : (run k).byteNext = true) :
    bytesLeft run left (k + 1) = bytesLeft run left k - 1 := by
  obtain ⟨b, hb⟩ := (State.byteNext_iff _).1 h
  simp [bytesLeft, hb, h]

/-- A reception never has more than ten byte events to come. -/
theorem bytesLeft_le (run : Nat → State) {left : Nat} (h : left ≤ dataBytes + hwStatusBytes) (k : Nat) :
    bytesLeft run left k ≤ dataBytes + hwStatusBytes := by
  induction k with
  | zero => exact h
  | succ k ih =>
    unfold bytesLeft
    split
    · exact Nat.le_refl _
    · split <;> omega

/-- What follows an instant after a strobe is after it too. -/
theorem Instant.after_of_le {p q : Instant} {j : Nat} (hp : p.after j) (h : p.le q) : q.after j := by
  unfold Instant.after Instant.le at *
  omega

/-- A mode read of step `m` that answers `R_IDLE` after an idle strobe makes the radio idle at every later instant up to a
receive or calibrate strobe. -/
theorem IdleSince.of_read {run : Nat → State} {radio : Nat → RMode} {j m : Nat} {p : Instant}
    (hj : strobeIn run j = some .idle) (hjm : j ≤ m) (hm : .idle ∈ (run m).modesRead) (hp : m < p.step)
    (hs : ∀ k, j < k → p.after k → strobeIn run k ≠ some .rx ∧ strobeIn run k ≠ some .cal) : IdleSince run radio p := by
  obtain ⟨i, hi, he⟩ := List.getElem_of_mem hm
  refine ⟨j, hj, ⟨⟨m, i + 1⟩, ?_, .inl hp, ?_⟩, hs⟩
  · rcases Nat.lt_or_eq_of_le hjm with h | h
    · exact .inl h
    · exact .inr ⟨h.symm, Nat.succ_pos i⟩
  · simp [modeAt, List.getElem?_eq_getElem hi, he]

end Sys2Proof.Machine
end

