-- ==== Sys2Proof/Laws/Listing.lean ====
section
/-! SUPPORT. The draws of a listing (spec/30_encoding.md R80): a poll list is consumed in order and goes on with its last value,
the handlers' waits consume exactly the draws written out for them, and a line without draws leaves every read free. -/

namespace Sys2Proof.Machine

/-- The mode port shows the mode whose word is on it. -/
@[simp] theorem RMode.ofBits_bits (m : RMode) : RMode.ofBits m.bits = m := by cases m <;> rfl

/-! ## Poll lists -/

/-- The polls are at least one and at most `limit + 1`. -/
theorem pollDraws_length (m : RMode) (limit : Nat) (x : RMode) (more : List RMode) :
    1 ≤ (pollDraws m limit x more).length ∧ (pollDraws m limit x more).length ≤ limit + 1 := by
  induction limit generalizing x more with
  | zero => simp [pollDraws]
  | succ n ih =>
    unfold pollDraws
    split
    · simp
    · split
      · have := (ih x []).2
        simp
        omega
      · rename_i y rest
        have := (ih y rest).2
        simp
        omega

/-- R80: the `k`-th answer is the `k`-th value of the list, and its last value from there on. -/
theorem pollDraws_get (m : RMode) (limit : Nat) (x : RMode) (more : List RMode) (k : Nat)
    (h : k < (pollDraws m limit x more).length) :
    (pollDraws m limit x more)[k]? = (x :: more)[min k more.length]? := by
  induction limit generalizing x more k with
  | zero =>
    have hk : k = 0 := by simpa [pollDraws] using h
    subst hk
    simp [pollDraws]
  | succ n ih =>
    cases k with
    | zero => simp [pollDraws]
    | succ k =>
      by_cases hx : x = m
      · simp [pollDraws, hx] at h
      · cases more with
        | nil =>
          have h' : k < (pollDraws m n x []).length := by simpa [pollDraws, hx] using h
          simpa [pollDraws, hx] using ih x [] k h'
        | cons y rest =>
          have h' : k < (pollDraws m n y rest).length := by simpa [pollDraws, hx] using h
          have := ih y rest k h'
          simp only [pollDraws, hx, if_false, List.getElem?_cons_succ, List.length_cons, Nat.add_min_add_right]
          exact this

/-- The wait of a handler reads exactly the answers written out for it, whatever stands behind them in the script. -/
theorem Env.modesIsr_pollDraws (m : RMode) (limit : Nat) (x : RMode) (more : List RMode) (e : Env) (base : List (BitVec 2))
    (h : e.modes = (pollDraws m limit x more).map RMode.bits ++ base) :
    e.modesIsr m limit = pollDraws m limit x more := by
  induction limit generalizing x more e with
  | zero => simp [Env.modesIsr, pollDraws, Env.mode, Env.peek, h]
  | succ n ih =>
    have hmode : e.mode = x := by simp [Env.mode, Env.peek, h, pollDraws]
    unfold Env.modesIsr pollDraws
    rw [hmode]
    by_cases hx : x = m
    · rw [if_pos hx, if_pos hx]
    · rw [if_neg hx, if_neg hx]
      cases more with
      | nil => rw [ih x [] e.afterMode (by simp [Env.afterMode, h, pollDraws, hx])]
      | cons y rest => rw [ih y rest e.afterMode (by simp [Env.afterMode, h, pollDraws, hx])]

/-- The wait of a handler consumes exactly the answers written out for it. -/
theorem Env.pollIsr_pollDraws (m : RMode) (limit : Nat) (x : RMode) (more : List RMode) (e : Env) (base : List (BitVec 2))
    (h : e.modes = (pollDraws m limit x more).map RMode.bits ++ base) : (e.pollIsr m limit).modes = base := by
  rw [Env.pollIsr_eq, Env.modesIsr_pollDraws m limit x more e base h, h]
  simp

/-! ## Lines without draws -/

/-- No poll list, no answer. -/
@[simp] theorem waitDraws_nil (waits : List (RMode × Nat)) : waitDraws waits [] = [] := by cases waits <;> rfl

/-- A line without draws adds nothing to the scripts. -/
@[simp] theorem State.giveDraws_none (s : State) (r : Reads) : s.giveDraws r Draws.none = s := by
  simp [State.giveDraws, Draws.none]

/-- No draws are left of none. -/
@[simp] theorem Draws.drop_none (r : Reads) : Draws.none.drop r = Draws.none := by simp [Draws.drop, Draws.none]

/-- The operations of a line without draws run as a listing of them. -/
theorem runOps_none (fuel : Nat) (ops : List Instr) (s : State) : runOps fuel ops Draws.none s = runListing fuel ops s := by
  induction ops generalizing s with
  | nil => rfl
  | cons i rest ih =>
    simp only [runOps, runListing, State.giveDraws_none, Draws.drop_none]
    split <;> simp [*]

/-- A listing of lines without draws leaves every read free, as `runListing` does. -/
theorem runLines_without_draws (fuel : Nat) (ops : List Instr) (s : State) :
    runLines fuel (ops.map (fun i => ⟨[i], []⟩)) s = runListing fuel ops s := by
  induction ops generalizing s with
  | nil => rfl
  | cons i rest ih =>
    have h : runOps fuel [i] (Draws.ofList []) s = runListing fuel [i] s := runOps_none fuel [i] s
    simp only [List.map_cons, runLines, h, runListing]
    cases settle fuel (s.offer (encode i)) <;> simp [ih]

end Sys2Proof.Machine
end

