-- ==== Sys2Proof/Laws/Micro.lean ====
section
/-! SUPPORT. The micro-steps of the four long commands one by one, and what the counters in range (`Mseq.fits`) say at each. -/

namespace Sys2Proof.Machine

variable {s : State} {hz : Word32} {ch : Byte}

/-! ### tuneMicro -/

theorem tuneMicro_t1 (h : s.mseq.step = .t1) : tuneMicro hz s = ((s.strobe .idle).setSession .idle).goto .t2Poll := by
  unfold tuneMicro
  rw [h]

theorem tuneMicro_t2Poll (h : s.mseq.step = .t2Poll) : tuneMicro hz s = 
    s.waitPoll .idle s.cfg.pollMaxIdle .t2Tick (fun t => t.goto .t3) := by
  unfold tuneMicro
  rw [h]

theorem tuneMicro_t2Tick (h : s.mseq.step = .t2Tick) : tuneMicro hz s = s.tickTo .t2Poll := by
  unfold tuneMicro
  rw [h]

theorem tuneMicro_t3 (h : s.mseq.step = .t3) : tuneMicro hz s = s.ifClr.goto .t4 := by
  unfold tuneMicro
  rw [h]

theorem tuneMicro_t4 (h : s.mseq.step = .t4) : tuneMicro hz s = (s.synWrite (synWord s.cfg hz)).goto .t5 := by
  unfold tuneMicro
  rw [h]

theorem tuneMicro_t5 (h : s.mseq.step = .t5) : tuneMicro hz s = s.armRx.goto .t6 := by
  unfold tuneMicro
  rw [h]

theorem tuneMicro_t6 (h : s.mseq.step = .t6) : tuneMicro hz s = s.clearFlags.goto .t7Poll := by
  unfold tuneMicro
  rw [h]

theorem tuneMicro_t7Poll (h : s.mseq.step = .t7Poll) : tuneMicro hz s = 
    s.waitPoll .rx s.cfg.pollMaxRx .t7Tick (fun t => t.confirmRx.goto .t8) := by
  unfold tuneMicro
  rw [h]

theorem tuneMicro_t7Tick (h : s.mseq.step = .t7Tick) : tuneMicro hz s = s.tickTo .t7Poll := by
  unfold tuneMicro
  rw [h]

theorem tuneMicro_t8 (h : s.mseq.step = .t8) : tuneMicro hz s = s.finish hz := by
  unfold tuneMicro
  rw [h]

/-! ### calMicro -/

theorem calMicro_c1 (h : s.mseq.step = .c1) : calMicro ch hz s = (s.synWrite (synWord s.cfg hz)).goto .c2 := by
  unfold calMicro
  rw [h]

theorem calMicro_c2 (h : s.mseq.step = .c2) : calMicro ch hz s = 
    ((s.strobe .cal).setSession .calibrating).goto .c3 := by
  unfold calMicro
  rw [h]

theorem calMicro_c3 (h : s.mseq.step = .c3) : calMicro ch hz s = s.armRx.goto .c4First := by
  unfold calMicro
  rw [h]

theorem calMicro_c4First (h : s.mseq.step = .c4First) : calMicro ch hz s = s.tickTo .c4Second := by
  unfold calMicro
  rw [h]

theorem calMicro_c4Second (h : s.mseq.step = .c4Second) : calMicro ch hz s = s.confirmRx.goto .c5 := by
  unfold calMicro
  rw [h]

theorem calMicro_c5 (h : s.mseq.step = .c5) : calMicro ch hz s = (s.calSnapshot ch.toNat hz).goto .c6 := by
  unfold calMicro
  rw [h]

theorem calMicro_c6 (h : s.mseq.step = .c6) : calMicro ch hz s = (s.calSample ch.toNat).goto .c7 := by
  unfold calMicro
  rw [h]

theorem calMicro_c7 (h : s.mseq.step = .c7) : calMicro ch hz s = ((s.strobe .idle).setSession .idle).goto .c8 := by
  unfold calMicro
  rw [h]

theorem calMicro_c8 (h : s.mseq.step = .c8) : calMicro ch hz s = s.finish hz := by
  unfold calMicro
  rw [h]

/-! ### tunechMicro -/

theorem tunechMicro_u1 (h : s.mseq.step = .u1) : tunechMicro ch s = (s.synWrite (s.entry ch.toNat).syn).goto .u2 := by
  unfold tunechMicro
  rw [h]

theorem tunechMicro_u2 (h : s.mseq.step = .u2) : tunechMicro ch s = (s.calWrite (s.entry ch.toNat).cal).goto .u3 := by
  unfold tunechMicro
  rw [h]

theorem tunechMicro_u3 (h : s.mseq.step = .u3) : tunechMicro ch s = s.finish 0 := by
  unfold tunechMicro
  rw [h]

/-! ### sweepMicro -/

theorem sweepMicro_s0Syn (h : s.mseq.step = .s0Syn) : sweepMicro s = 
    (s.synWrite (s.entry s.mseq.chan).syn).goto .s0Cal := by
  unfold sweepMicro
  rw [h]

theorem sweepMicro_s0Cal (h : s.mseq.step = .s0Cal) : sweepMicro s = 
    (s.calWrite (s.entry s.mseq.chan).cal).goto .s1 := by
  unfold sweepMicro
  rw [h]

theorem sweepMicro_s1 (h : s.mseq.step = .s1) : sweepMicro s = s.armRx.goto .s2 := by
  unfold sweepMicro
  rw [h]

theorem sweepMicro_s2 (h : s.mseq.step = .s2) : sweepMicro s = 
    if s.mseq.n + 1 < s.cfg.dwellIter then s.tickTo .s2 else s.confirmRx.goto .s3 := by
  unfold sweepMicro
  rw [h]

theorem sweepMicro_s3 (h : s.mseq.step = .s3) : sweepMicro s = (s.sweepSample s.mseq.chan).goto .s4 := by
  unfold sweepMicro
  rw [h]

theorem sweepMicro_s4 (h : s.mseq.step = .s4) : sweepMicro s = 
    ((s.strobe .idle).setSession .idle).sweepChannel (s.mseq.chan + 1) := by
  unfold sweepMicro
  rw [h]

theorem sweepMicro_sEnd (h : s.mseq.step = .sEnd) : sweepMicro s = s.finish 0 := by
  unfold sweepMicro
  rw [h]

/-! ### The counters in range -/

theorem Mseq.fits_tune {c : Config} {m : Mseq} (h : m.fits c (.tune hz) = true) :
    (m.step = .t2Poll ∧ m.n ≤ c.pollMaxIdle) ∨ (m.step = .t2Tick ∧ m.n < c.pollMaxIdle) ∨ m.step = .t3 ∨ m.step = .t4 ∨
      m.step = .t5 ∨ m.step = .t6 ∨ (m.step = .t7Poll ∧ m.n ≤ c.pollMaxRx) ∨ (m.step = .t7Tick ∧ m.n < c.pollMaxRx) ∨
      m.step = .t8 := by
  change m.fitsTune c = true at h
  unfold Mseq.fitsTune at h
  split at h <;> simp_all

theorem Mseq.fits_cal {c : Config} {m : Mseq} (h : m.fits c (.cal ch hz) = true) :
    m.step = .c2 ∨ m.step = .c3 ∨ m.step = .c4First ∨ m.step = .c4Second ∨ m.step = .c5 ∨ m.step = .c6 ∨ m.step = .c7 ∨
      m.step = .c8 := by
  change m.fitsCal = true at h
  unfold Mseq.fitsCal at h
  split at h <;> simp_all

theorem Mseq.fits_tunech {c : Config} {m : Mseq} (h : m.fits c (.tunech ch) = true) : m.step = .u2 ∨ m.step = .u3 := by
  change m.fitsTunech = true at h
  unfold Mseq.fitsTunech at h
  split at h <;> simp_all

theorem Mseq.fits_sweep {c : Config} {m : Mseq} (h : m.fits c .sweep = true) :
    (m.step = .sEnd) ∨ (m.chan < c.numChannels ∧
      (m.step = .s0Syn ∨ m.step = .s0Cal ∨ m.step = .s1 ∨ (m.step = .s2 ∧ m.n < c.dwellIter) ∨ m.step = .s3 ∨
        m.step = .s4)) := by
  change m.fitsSweep c = true at h
  unfold Mseq.fitsSweep at h
  split at h <;> simp_all

end Sys2Proof.Machine
end

