-- ==== Sys2Proof/Laws/PerInstr.lean ====
section
/-! SUPPORT. One fact per instruction about its encoding: its word selects its own row of the opcode table and no other
(spec/30_encoding.md R71, R72). -/

namespace Sys2Proof

/-- A row selects a command word field by field. -/
theorem CommandRow.selects_iff (r : CommandRow) (op idx : Byte) (arg : Word32) :
    r.selects (cmdWord op idx arg) = true ↔
      op &&& cmdOp r.mask = cmdOp r.pattern ∧ idx &&& cmdIdx r.mask = cmdIdx r.pattern ∧
        arg &&& cmdArg r.mask = cmdArg r.pattern := by
  unfold CommandRow.selects
  rw [decide_eq_true_iff, ← cmdWord_inj, ← cmdWord_and, cmdWord_fields, cmdWord_fields]

/-- A row selects an event word field by field. -/
theorem EventRow.selects_iff (r : EventRow) (kind : BitVec 2) (data : Byte) :
    r.selects (evWord kind data) = true ↔
      kind &&& evKind r.mask = evKind r.pattern ∧ data &&& evData r.mask = evData r.pattern := by
  unfold EventRow.selects
  rw [decide_eq_true_iff, ← evWord_inj, ← evWord_and, evWord_fields, evWord_fields]

/-- The word of an operation selects the row of its mnemonic and no other. -/
def Laws.OwnRow.Statement (i : Instr) : Prop :=
  match encode i with
  | .command w => ∃ r ∈ commandRows, r.mnemonic = i.mnemonic ∧ ∀ r' ∈ commandRows, (r'.selects w = true ↔ r' = r)
  | .event w => ∃ r ∈ eventRows, r.mnemonic = i.mnemonic ∧ ∀ r' ∈ eventRows, (r'.selects w = true ↔ r' = r)

theorem Laws.OwnRow.tune (hz : Word32) : Laws.OwnRow.Statement (.tune hz) := by
  simp [Laws.OwnRow.Statement, encode, commandRows, CommandRow.selects_iff, cmdOp, cmdIdx, cmdArg, Instr.mnemonic]

theorem Laws.OwnRow.cal (ch : Byte) (hz : Word32) : Laws.OwnRow.Statement (.cal ch hz) := by
  simp [Laws.OwnRow.Statement, encode, commandRows, CommandRow.selects_iff, cmdOp, cmdIdx, cmdArg, Instr.mnemonic]

theorem Laws.OwnRow.tunech (ch : Byte) : Laws.OwnRow.Statement (.tunech ch) := by
  simp [Laws.OwnRow.Statement, encode, commandRows, CommandRow.selects_iff, cmdOp, cmdIdx, cmdArg, Instr.mnemonic]

theorem Laws.OwnRow.sweep : Laws.OwnRow.Statement .sweep := by
  simp [Laws.OwnRow.Statement, encode, commandRows, CommandRow.selects_iff, cmdOp, cmdIdx, cmdArg, Instr.mnemonic]

theorem Laws.OwnRow.clrrdy : Laws.OwnRow.Statement .clrrdy := by
  simp [Laws.OwnRow.Statement, encode, commandRows, CommandRow.selects_iff, cmdOp, cmdIdx, cmdArg, Instr.mnemonic]

theorem Laws.OwnRow.rdbuf (i : Byte) : Laws.OwnRow.Statement (.rdbuf i) := by
  simp [Laws.OwnRow.Statement, encode, commandRows, CommandRow.selects_iff, cmdOp, cmdIdx, cmdArg, Instr.mnemonic]

theorem Laws.OwnRow.rdstat : Laws.OwnRow.Statement .rdstat := by
  simp [Laws.OwnRow.Statement, encode, commandRows, CommandRow.selects_iff, cmdOp, cmdIdx, cmdArg, Instr.mnemonic]

theorem Laws.OwnRow.rdsyn : Laws.OwnRow.Statement .rdsyn := by
  simp [Laws.OwnRow.Statement, encode, commandRows, CommandRow.selects_iff, cmdOp, cmdIdx, cmdArg, Instr.mnemonic]

theorem Laws.OwnRow.rdchf (ch : Byte) : Laws.OwnRow.Statement (.rdchf ch) := by
  simp [Laws.OwnRow.Statement, encode, commandRows, CommandRow.selects_iff, cmdOp, cmdIdx, cmdArg, Instr.mnemonic]

theorem Laws.OwnRow.rdchs (ch : Byte) : Laws.OwnRow.Statement (.rdchs ch) := by
  simp [Laws.OwnRow.Statement, encode, commandRows, CommandRow.selects_iff, cmdOp, cmdIdx, cmdArg, Instr.mnemonic]

theorem Laws.OwnRow.rdchc (ch : Byte) : Laws.OwnRow.Statement (.rdchc ch) := by
  simp [Laws.OwnRow.Statement, encode, commandRows, CommandRow.selects_iff, cmdOp, cmdIdx, cmdArg, Instr.mnemonic]

theorem Laws.OwnRow.rdchr (ch : Byte) : Laws.OwnRow.Statement (.rdchr ch) := by
  simp [Laws.OwnRow.Statement, encode, commandRows, CommandRow.selects_iff, cmdOp, cmdIdx, cmdArg, Instr.mnemonic]

theorem Laws.OwnRow.crcclr : Laws.OwnRow.Statement .crcclr := by
  simp [Laws.OwnRow.Statement, encode, commandRows, CommandRow.selects_iff, cmdOp, cmdIdx, cmdArg, Instr.mnemonic]

theorem Laws.OwnRow.crcupd (b : Byte) : Laws.OwnRow.Statement (.crcupd b) := by
  simp [Laws.OwnRow.Statement, encode, commandRows, CommandRow.selects_iff, argHigh_eq_zero_iff,
    cmdOp, cmdIdx, cmdArg, Instr.mnemonic]

theorem Laws.OwnRow.crcrd : Laws.OwnRow.Statement .crcrd := by
  simp [Laws.OwnRow.Statement, encode, commandRows, CommandRow.selects_iff, cmdOp, cmdIdx, cmdArg, Instr.mnemonic]

theorem Laws.OwnRow.evSfd : Laws.OwnRow.Statement .evSfd := by
  simp [Laws.OwnRow.Statement, encode, eventRows, EventRow.selects_iff, evKind, evData, Instr.mnemonic]

theorem Laws.OwnRow.evByte (b : Byte) : Laws.OwnRow.Statement (.evByte b) := by
  simp [Laws.OwnRow.Statement, encode, eventRows, EventRow.selects_iff, evKind, evData, Instr.mnemonic]

theorem Laws.OwnRow.evOvf : Laws.OwnRow.Statement .evOvf := by
  simp [Laws.OwnRow.Statement, encode, eventRows, EventRow.selects_iff, evKind, evData, Instr.mnemonic]

end Sys2Proof
end

