-- ==== Sys2Proof/Tests/Slice0.lean ====
section
/-! SUPPORT. Small tests: refusals of the well-formedness checks, decoding of words written out from the spec's encodings, one
step of each instruction with the values of spec/95_test_vectors.md, and for each statement a state and operands that meet
its hypotheses. -/

namespace Sys2Proof.Machine

/-! ## Helpers -/

/-- The property of the next state, where there is one. -/
def nextIs (o : Host.Outcome State Fault Refusal) (p : State → Bool) : Bool :=
  match o with
  | .next t => p t
  | .fault _ => false
  | .refused _ => false

/-- The outcome is a refusal for this reason. -/
def refusedAs (o : Host.Outcome State Fault Refusal) (r : Refusal) : Bool :=
  match o with
  | .next _ => false
  | .fault _ => false
  | .refused r' => decide (r' = r)

/-- A state at rest in which nothing is a free value: two channels calibrated, the radio's answers scripted. -/
def sample : State :=
  { State.reset with
    syn2 := 0x10, syn1 := 0xB0, syn0 := 0x71, crc := 0x1EF0, rsp := 0
    buf := [(0, 0x48), (1, 0x2C), (8, 0xA8)]
    tab := [(0, ⟨433920000, 0x10, 0xB0, 0x71, 0xA9, 0x2A, 0x00, 0x28, 0x28⟩),
      (1, ⟨915000000, 0x23, 0x31, 0x3B, 0xA9, 0x2A, 0x11, 0x00, 0x00⟩)]
    env := { Env.silent with
      modes := [0, 0, 0, 0, 2, 2], rssis := [0xB7, 0x85], foes := [0xFD], cals := [0xA92A00], rxs := [0x5A] } }

/-- The command whose word is `w` in progress at micro-step `m`. -/
def going (w : BitVec 48) (m : Micro) (n chan : Nat) : State :=
  { sample with mseq := ⟨true, cmdOp w, m, cmdArg w, cmdIdx w, n, chan⟩ }

/-- A word on the command port. -/
def offered (w : BitVec 48) : State := { sample with env := { sample.env with cmds := [w] } }

/-- The next turn is this one. -/
def withTurn (t : Turn) (s : State) : State := { s with env := { s.env with turns := [t] } }

/-- A reception with `n` bytes read. -/
def receiving (n : BitVec 4) : State := { sample with session := .receiving, cursor := n }

/-- A reception with nine bytes read, the raw bytes of V-FRM-1, and the tenth pending. -/
def receivedNine : State :=
  { receiving 9 with
    buf := [(0, 0x48), (1, 0x2C), (2, 0x6A), (3, 0x1E), (4, 0x59), (5, 0x3D), (6, 0x7B), (7, 0x0F), (8, 0xA8)]
    pendByte := true, pendData := some 0xB0 }

/-- The end of a frame, as V-FRM-1 leaves session, flag and cursor. -/
def complete : State := { sample with session := .frameReady, frameReady := true, cursor := 10 }

/-! ## The well-formedness checks refuse -/

theorem test_config_ok : Config.vectors.wf = true := by decide

theorem test_config_reference : Config.wf { Config.vectors with referenceHz := 0 } = false := by decide

theorem test_config_no_channel : Config.wf { Config.vectors with numChannels := 0 } = false := by decide

theorem test_config_channels : Config.wf { Config.vectors with numChannels := 257 } = false := by decide

theorem test_config_dwell : Config.wf { Config.vectors with dwellIter := 0 } = false := by decide

theorem test_config_band : Config.wf { Config.vectors with bandLoHz := 2, bandHiHz := 1 } = false := by decide

/-- The band's top is not representable with the reference of V-FRQ-3. -/
theorem test_config_band_top : Config.wf { Config.vectors with referenceHz := 16777216 } = false := by decide

/-- V-FRQ-3. -/
theorem test_wf_tune : (Instr.tune 4294967168).wellFormed { Config.vectors with referenceHz := 16777216 } = false ∧
    (Instr.tune 4294967167).wellFormed { Config.vectors with referenceHz := 16777216 } = true := by decide

theorem test_wf_cal : (Instr.cal 2 0).wellFormed Config.vectors = false ∧ (Instr.cal 1 0).wellFormed Config.vectors = true ∧
    (Instr.cal 1 4294967168).wellFormed { Config.vectors with referenceHz := 16777216 } = false := by decide

theorem test_wf_channel : (Instr.tunech 2).wellFormed Config.vectors = false ∧
    (Instr.rdchf 2).wellFormed Config.vectors = false ∧ (Instr.rdchs 255).wellFormed Config.vectors = false ∧
    (Instr.rdchc 2).wellFormed Config.vectors = false ∧ (Instr.rdchr 2).wellFormed Config.vectors = false := by decide

/-- V-CON-3. -/
theorem test_wf_index : (Instr.rdbuf 11).wellFormed Config.vectors = false ∧
    (Instr.rdbuf 10).wellFormed Config.vectors = true := by decide

/-! ## Decoding (V-ENC-1, V-ENC-2), one word of every row and the reserved ones -/

theorem test_decode_tune : decodeTableWord 48 0x010019DD1800 = some (.tune 433920000) := by decide
theorem test_decode_cal : decodeTableWord 48 0x02033689CAC0 = some (.cal 3 915000000) := by decide
theorem test_decode_cal_255 : decodeTableWord 48 0x02FF00000000 = some (.cal 255 0) := by decide
theorem test_decode_tunech : decodeTableWord 48 0x030300000000 = some (.tunech 3) := by decide
theorem test_decode_sweep : decodeTableWord 48 0x040000000000 = some .sweep := by decide
theorem test_decode_clrrdy : decodeTableWord 48 0x080000000000 = some .clrrdy := by decide
theorem test_decode_rdbuf : decodeTableWord 48 0x090A00000000 = some (.rdbuf 10) := by decide
theorem test_decode_rdstat : decodeTableWord 48 0x0A0000000000 = some .rdstat := by decide
theorem test_decode_rdsyn : decodeTableWord 48 0x0B0000000000 = some .rdsyn := by decide
theorem test_decode_rdchf : decodeTableWord 48 0x0C0100000000 = some (.rdchf 1) := by decide
theorem test_decode_rdchs : decodeTableWord 48 0x0D0100000000 = some (.rdchs 1) := by decide
theorem test_decode_rdchc : decodeTableWord 48 0x0E0100000000 = some (.rdchc 1) := by decide
theorem test_decode_rdchr : decodeTableWord 48 0x0F0100000000 = some (.rdchr 1) := by decide
theorem test_decode_crcclr : decodeTableWord 48 0x100000000000 = some .crcclr := by decide
theorem test_decode_crcupd : decodeTableWord 48 0x1100000000A5 = some (.crcupd 0xA5) := by decide
theorem test_decode_crcrd : decodeTableWord 48 0x120000000000 = some .crcrd := by decide
theorem test_decode_sfd : decodeTableWord 16 0x1FF = some .evSfd := by decide
theorem test_decode_byte : decodeTableWord 16 0x2A5 = some (.evByte 0xA5) := by decide
theorem test_decode_ovf : decodeTableWord 16 0x3AB = some .evOvf := by decide

theorem test_decode_reserved_ops : ([0x000000000000, 0x050000000000, 0x060000000000, 0x070000000000, 0x130000000000,
    0xFF0000000000] : List (BitVec 48)).all (fun w => decide (decodeCommand w = .error .reservedOp)) = true := by decide

theorem test_decode_must_be_zero : ([0x010100000000, 0x040000000001, 0x040100000000, 0x110100000000, 0x110000000100,
    0x030300000001, 0x090000000005] : List (BitVec 48)).all
    (fun w => decide (decodeCommand w = .error .mustBeZero)) = true := by decide

theorem test_decode_no_event : decodeEvent 0x000 = .error .noEvent ∧ decodeEvent 0x0FF = .error .noEvent := by decide

/-- The rows of R71 and R72 do not overlap: their opcodes and kinds differ in the bits both rows fix. -/
theorem test_rows_disjoint :
    commandRows.Pairwise (fun r q => r.pattern &&& q.mask ≠ q.pattern &&& r.mask) ∧
    eventRows.Pairwise (fun r q => r.pattern &&& q.mask ≠ q.pattern &&& r.mask) := by decide

/-- The first step after reset runs the placed word, for each row of the table with its operands 0. -/
theorem test_place_commands :
    ([0x010000000000, 0x020000000000, 0x030000000000, 0x040000000000, 0x080000000000, 0x090000000000, 0x0A0000000000,
      0x0B0000000000, 0x0C0000000000, 0x0D0000000000, 0x0E0000000000, 0x0F0000000000, 0x100000000000, 0x110000000000,
      0x120000000000].all fun w => nextIs (step (State.reset.withFetchWord 48 w)) (fun _ => true)) = true := by decide

theorem test_place_events :
    ([0x100, 0x200, 0x300].all fun w => nextIs (step (State.reset.withFetchWord 16 w)) (fun _ => true)) = true := by decide

/-! ## Operand values -/

/-- V-FRQ-1, V-FRQ-2. -/
theorem test_freq_word : freqWord Config.vectors 433920000 = 1093745 ∧ freqWord Config.vectors 198 = 0 ∧
    freqWord Config.vectors 199 = 1 ∧ freqWord { Config.vectors with referenceHz := 26214400 } 200 = 1 ∧
    freqWord { Config.vectors with referenceHz := 26214400 } 600 = 2 := by decide

/-- V-NRM-1. -/
theorem test_norm : normRssi 0x80 = 0x00 ∧ normRssi 0xA8 = 0x28 ∧ normRssi 0x7F = 0xFF := by decide

/-- V-REV-2. -/
theorem test_rev8 : swapNibbles 0x12 = 0x21 ∧ swapPairs 0x21 = 0x84 ∧ rev8 0x12 = 0x48 := by decide

/-- V-CRC-1, V-CRC-3. -/
theorem test_crc : crcByte 0x0000 0xA5 = 0xE54F ∧
    crc16 [0x31, 0x32, 0x33, 0x34, 0x35, 0x36, 0x37, 0x38, 0x39] = 0x31C3 := by decide +kernel

/-! ## One step of each instruction -/

/-- V-SYN-1 T1, T4. -/
theorem test_tune_t1 : nextIs (exec (.tune 433920000) complete)
    (fun t => decide (t.session = .idle) && decide (t.out.strobe = some .idle) && t.frameReady && t.mseq.busy) = true := by
  decide

theorem test_tune_t4 : nextIs (exec (.tune 433920000) (going 0x010019DD1800 .t4 0 0))
    (fun t => decide (t.syn = 0x10B071) && decide (t.mseq.step = .t5)) = true := by decide

/-- V-CAL-1 C5 and C6: the snapshot, then the sample with the maximum 0. -/
theorem test_cal_snapshot : nextIs (exec (.cal 1 915000000) (going 0x02013689CAC0 .c5 0 0))
    (fun t => decide ((t.entry 1).syn = 0x10B071) && decide ((t.entry 1).cal = 0xA92A00) &&
      decide ((t.entry 0).cal = 0xA92A00)) = true := by decide

theorem test_cal_sample : nextIs (exec (.cal 0 433920000) (going 0x020019DD1800 .c6 0 0))
    (fun t => decide ((t.entry 0).current = 0x37) && decide ((t.entry 0).max = 0)) = true := by decide

/-- V-CAL-3. -/
theorem test_tunech_u1 : nextIs (exec (.tunech 1) sample) (fun t => decide (t.syn = 0x23313B) && decide (t.out.strobe = none)) =
    true := by decide

theorem test_tunech_u2 : nextIs (exec (.tunech 1) (going 0x030100000000 .u2 0 0))
    (fun t => decide (t.out.calOut = some 0xA92A11)) = true := by decide

/-- V-CAL-2, P2 line 4: the maximum as an unsigned number. -/
theorem test_sweep_sample : nextIs (exec .sweep (going 0x040000000000 .s3 0 0))
    (fun t => decide ((t.entry 0).current = 0x37) && decide ((t.entry 0).max = 0x37) && decide ((t.entry 1).max = 0)) =
    true := by decide

theorem test_sweep_last_channel : nextIs (exec .sweep (going 0x040000000000 .s4 0 1))
    (fun t => decide (t.session = .idle) && decide (t.mseq.step = .sEnd)) = true := by decide

/-- V-CON-2. -/
theorem test_clrrdy : nextIs (exec .clrrdy complete)
    (fun t => !t.frameReady && decide (t.session = .idle) && decide (t.cursor = 10)) = true := by decide

theorem test_clrrdy_keeps_error :
    nextIs (exec .clrrdy { sample with session := .overflowError, error := true })
      (fun t => t.error && decide (t.session = .overflowError) && !t.frameReady) = true := by decide

/-- V-CON-3. -/
theorem test_rdbuf : nextIs (exec (.rdbuf 1) sample) (fun t => decide (t.rsp = 0x2C) && t.out.rspValid) = true := by decide

theorem test_rdbuf_index : refusedAs (exec (.rdbuf 11) sample) .index = true := by decide

/-- V-CON-1. -/
theorem test_rdstat_frame : nextIs (exec .rdstat complete) (fun t => decide (t.rsp = 0x00000A0C)) = true := by decide

theorem test_rdstat_error : nextIs (exec .rdstat { sample with session := .overflowError, error := true })
    (fun t => decide (t.rsp = 0x00000015)) = true := by decide

/-- V-SYN-1. -/
theorem test_rdsyn : nextIs (exec .rdsyn sample) (fun t => decide (t.rsp = 0x0010B071)) = true := by decide

/-- V-CAL-1, P2. -/
theorem test_rdchf : nextIs (exec (.rdchf 1) sample) (fun t => decide (t.rsp = 915000000)) = true := by decide
theorem test_rdchs : nextIs (exec (.rdchs 1) sample) (fun t => decide (t.rsp = 0x0023313B)) = true := by decide
theorem test_rdchc : nextIs (exec (.rdchc 1) sample) (fun t => decide (t.rsp = 0x00A92A11)) = true := by decide
theorem test_rdchr : nextIs (exec (.rdchr 0) sample) (fun t => decide (t.rsp = 0x00002828)) = true := by decide
theorem test_rdchr_channel : refusedAs (exec (.rdchr 2) sample) .channel = true := by decide

/-- V-CRC-2: the second of the eight `FF`. -/
theorem test_crcclr : nextIs (exec .crcclr sample) (fun t => decide (t.crc = 0) && decide (t.rsp = 0)) = true := by decide
theorem test_crcupd : nextIs (exec (.crcupd 0xFF) sample) (fun t => decide (t.crc = 0x1D0F) && decide (t.rsp = 0x1D0F)) = true := by
  decide
theorem test_crcrd : nextIs (exec .crcrd sample) (fun t => decide (t.rsp = 0x1EF0) && decide (t.crc = 0x1EF0)) = true := by decide

/-- V-FRM-6: a frame-start leaves the flag. -/
theorem test_sfd : nextIs (exec .evSfd complete)
    (fun t => decide (t.session = .receiving) && decide (t.cursor = 0) && t.frameReady) = true := by decide

/-- V-FRM-1, first and last byte. -/
theorem test_byte_first : nextIs (exec (.evByte 0x12) (receiving 0))
    (fun t => decide (t.bufRead 0 = 0x48) && decide (t.cursor = 1) && t.out.rxRd) = true := by decide

theorem test_byte_last : nextIs (exec (.evByte 0xB0) { receiving 9 with pendData := some 0xB0 })
    (fun t => decide (t.bufRead 8 = 0x28) && decide (t.bufRead 9 = 0x30) && decide (t.bufRead 10 = 0xFD) &&
      decide (t.session = .frameReady) && t.frameReady && decide (t.cursor = 10) && decide (t.out.strobe = some .idle)) =
    true := by decide

/-- V-FRM-3, V-FRM-6: the overflow leaves `frame_ready`. -/
theorem test_ovf : nextIs (exec .evOvf complete)
    (fun t => decide (t.session = .overflowError) && t.error && t.frameReady && decide (t.cursor = 0)) = true := by decide

/-- V-EVT-1: overflow before byte. -/
theorem test_priority : nextIs (step { receiving 5 with pendByte := true, pendData := some 0x77, pendOvf := true })
    (fun t => decide (t.session = .overflowError) && t.pendByte && !t.pendOvf && decide (Sparse.get? t.buf 5 = none)) = true := by
  decide

/-- V-EVT-3: the second byte event takes the value away; the handler's read is a free draw. -/
theorem test_coalescing : nextIs (step (withTurn (.event 0x222) { receiving 2 with pendByte := true, pendData := some 0x11 }))
    (fun t => t.pendByte && decide (t.pendData = none)) = true := by decide

theorem test_free_draw : nextIs (step { receiving 2 with pendByte := true, pendData := none })
    (fun t => decide (t.bufRead 2 = 0x5A) && decide (t.env.rxs = []) && decide (t.cursor = 3)) = true := by decide

/-! ## States that meet the statements' hypotheses -/

theorem test_sample_inv : sample.Inv :=
  ⟨by decide, by decide, by decide, by decide, by decide, by decide, by decide⟩

theorem test_sample_at_rest : sample.atRest = true := by decide

/-- StepRunsTheDecodedCommand, both clauses; ReadyBlockRunsExactlyTheAdmitted. -/
theorem test_witness_step_ready : (offered 0x0A0000000000).mainTurn = true ∧ (offered 0x0A0000000000).mseq.busy = false ∧
    (offered 0x0A0000000000).env.cmds = [0x0A0000000000] ∧ decodeCommand 0x0A0000000000 = .ok .rdstat := by decide

theorem test_witness_step_going : (going 0x010019DD1800 .t8 0 0).mainTurn = true ∧
    (going 0x010019DD1800 .t8 0 0).mseq.busy = true ∧
    decodeCommand (going 0x010019DD1800 .t8 0 0).mseq.word = .ok (.tune 433920000) := by decide

/-- StepDispatchesTheHighestPendingEvent, one state for each of the three events. -/
theorem test_witness_dispatch :
    (State.blockTurn { sample with pendOvf := true, pendSfd := true, pendByte := true } = true ∧
      State.noPending { sample with pendOvf := true, pendSfd := true, pendByte := true } = false) ∧
    (State.blockTurn { sample with pendSfd := true } = true ∧ State.noPending { sample with pendSfd := true } = false) ∧
    (State.blockTurn { sample with pendByte := true } = true ∧ State.noPending { sample with pendByte := true } = false) := by
  decide

/-- ArrivalLatchesTheEvent, one word for each kind. -/
theorem test_witness_arrival : (withTurn (.event 0x0FF) sample).env.turns = [.event 0x0FF] ∧ evKind 0x0FF = 0 ∧
    evKind 0x1FF = 1 ∧ evKind 0x2A5 = 2 ∧ evKind 0x3AB = 3 := by decide

/-- ReservedWordsAreRefused. -/
theorem test_witness_reserved : (offered 0x130000000000).mainTurn = true ∧ (offered 0x130000000000).mseq.busy = false ∧
    (offered 0x130000000000).env.cmds = [0x130000000000] ∧
    ∀ r ∈ commandRows, r.selects 0x130000000000 = false := by decide

/-- BlockWaitsForACommand. -/
theorem test_witness_wait : sample.mainTurn = true ∧ sample.mseq.busy = false ∧ sample.env.cmds = [] := by decide

/-- ResetRestoresTheControlState. -/
theorem test_witness_reset : (withTurn .rst (going 0x010019DD1800 .t5 0 0)).env.turns = [.rst] := by decide

/-- EveryStepKeepsTheInvariant, ReceptionHoldsTheBytesReadSinceFrameStart and every other statement about a step that answers
a next state: the step of a state with the invariant that does. -/
theorem test_witness_step_next : (offered 0x0A0000000000).Inv ∧ ∃ t, step (offered 0x0A0000000000) = .next t :=
  ⟨⟨by decide, by decide, by decide, by decide, by decide, by decide, by decide⟩, _, rfl⟩

/-- AdmittedHostIsNeverRefused. -/
theorem test_witness_admitted : (offered 0x0A0000000000).HostAdmitted := by
  intro w hw
  have : w = 0x0A0000000000 := by simpa [offered] using hw
  exact ⟨.rdstat, by rw [this]; decide, by decide⟩

/-- EveryCommandTerminatesWithinItsBound, ResponseComesOnlyWithTheLastMicroStep: a command in progress
under the invariant, at its last possible poll and at its last micro-step. -/
theorem test_witness_going_inv : (going 0x010019DD1800 .t7Poll 3 0).Inv ∧ (going 0x010019DD1800 .t7Poll 3 0).mainTurn = true ∧
    (going 0x010019DD1800 .t8 0 0).Inv :=
  ⟨⟨by decide, by decide, by decide, by decide, by decide, by decide, by decide⟩, by decide,
    ⟨by decide, by decide, by decide, by decide, by decide, by decide, by decide⟩⟩

theorem test_witness_going_next : (going 0x010019DD1800 .t8 0 0).env.turns.head? ≠ some .rst ∧
    (∃ t, step (going 0x010019DD1800 .t8 0 0) = .next t) ∧
    (withTurn (.event 0x100) (going 0x010019DD1800 .t8 0 0)).mainTurn = false ∧
    (∃ t, step (withTurn (.event 0x100) (going 0x010019DD1800 .t8 0 0)) = .next t) :=
  ⟨by decide, ⟨_, rfl⟩, by decide, ⟨_, rfl⟩⟩

/-- ResponseComesOnlyWithTheLastMicroStep, the ready block: a word that is answered at once, one that goes on, and the two
ways to no command (an arrival; no word). -/
theorem test_witness_ready :
    (offered 0x0A0000000000).env.turns.head? ≠ some .rst ∧ (offered 0x0A0000000000).mseq.busy = false ∧
    (offered 0x0A0000000000).mainTurn = true ∧
    nextIs (step (offered 0x0A0000000000)) (fun t => t.out.rspValid && !t.mseq.busy) = true ∧
    (offered 0x010019DD1800).mainTurn = true ∧
    nextIs (step (offered 0x010019DD1800)) (fun t => !t.out.rspValid && t.mseq.busy) = true ∧
    (withTurn (.event 0x100) sample).mainTurn = false ∧
    nextIs (step (withTurn (.event 0x100) sample)) (fun t => !t.out.rspValid) = true ∧
    sample.env.cmds = [] ∧ nextIs (step sample) (fun t => !t.out.rspValid) = true := by decide

/-- EveryCommandTerminatesWithinItsBound, third clause. -/
theorem test_witness_tune_offered : (offered 0x010019DD1800).Inv ∧ (offered 0x010019DD1800).mainTurn = true ∧
    (∃ t, step (offered 0x010019DD1800) = .next t ∧ t.mseq.busy = true) :=
  ⟨⟨by decide, by decide, by decide, by decide, by decide, by decide, by decide⟩, by decide, _, rfl, rfl⟩

/-- TuneAnswersItsFrequency: with the draws of V-SYN-1 the block is busy for seven steps and ends in the eighth. -/
theorem test_witness_tune_run :
    (offered 0x010019DD1800).mainTurn = true ∧ (offered 0x010019DD1800).mseq.busy = false ∧
    (offered 0x010019DD1800).env.cmds.head? = some (cmdWord 0x01 0 433920000) ∧
    (Instr.tune 433920000).wellFormed (offered 0x010019DD1800).cfg = true ∧
    .rst ∉ (offered 0x010019DD1800).env.turns ∧
    (List.range 7).all (fun j => nextIs (core.run (j + 1)
      { offered 0x010019DD1800 with env := { (offered 0x010019DD1800).env with modes := [0, 2] } })
      (fun t => t.mseq.busy)) = true ∧
    nextIs (core.run 8 { offered 0x010019DD1800 with env := { (offered 0x010019DD1800).env with modes := [0, 2] } })
      (fun t => !t.mseq.busy && decide (t.rsp = 433920000)) = true := by decide

/-- BufferReadsBackWhatWasWritten and TableReadsBackWhatWasWritten, at the last index; of the clause on equal contents, both
stores with themselves. -/
theorem test_witness_stores : Memory.wf sample.buf = true ∧ 10 < frameLen ∧
    Table.wf sample.cfg.numChannels sample.tab = true ∧ 1 < sample.cfg.numChannels := by decide

/-- FreqWordRoundsToNearestTieUp, OverflowNeedsALowReference, BandFrequenciesAreAdmitted. -/
theorem test_witness_freq : 0 < Config.vectors.referenceHz ∧ 16777217 ≤ Config.vectors.referenceHz ∧
    (Config.mk 16777216 0 0 0 1 1 0 0).referenceHz = 16777216 ∧ Config.vectors.wf = true ∧
    Config.vectors.bandLoHz ≤ (0 : Word32).toNat ∧ (4294967295 : Word32).toNat ≤ Config.vectors.bandHiHz := by decide

/-- OperandsOutOfRangeAreRefused, each clause at its boundary. -/
theorem test_witness_refused : sample.mseq.busy = false ∧ frameLen ≤ (11 : Byte).toNat ∧
    2 ^ 24 ≤ freqWord { Config.vectors with referenceHz := 16777216 } (4294967168 : Word32).toNat ∧
    sample.cfg.numChannels ≤ (2 : Byte).toNat ∧ (1 : Byte).toNat < sample.cfg.numChannels := by decide

/-- TuneFirstMicroSteps, TuneLastMicroSteps: acceptance, then where each clause starts. -/
theorem test_witness_tune_steps : sample.mseq.busy = false ∧ freqWord sample.cfg (433920000 : Word32).toNat < 2 ^ 24 ∧
    ([.t2Poll, .t2Tick, .t3, .t4, .t5, .t6, .t7Poll, .t7Tick, .t8] : List Micro).all (fun m =>
      (going 0x010019DD1800 m 0 0).standsAt (cmdWord 0x01 0 433920000) m) = true := by decide

/-- TuneLastMicroSteps, the two clauses of T7: a poll at the limit, and one below it that answers another mode. -/
theorem test_witness_tune_poll :
    (going 0x010019DD1800 .t7Poll 3 0).mseq.n = sample.cfg.pollMaxRx ∧
    (going 0x010019DD1800 .t7Poll 2 0).env.mode ≠ .rx ∧
    (going 0x010019DD1800 .t7Poll 2 0).mseq.n ≠ sample.cfg.pollMaxRx := by decide

/-- IfClrFindsEveryLatchClear: a step from T3 to T4; and with a latch set the step from T3 is the handler's. -/
theorem test_witness_t3 : (going 0x010019DD1800 .t3 0 0).mainTurn = true ∧
    (going 0x010019DD1800 .t3 0 0).env.turns.head? ≠ some .rst ∧
    (going 0x010019DD1800 .t3 0 0).standsAt (cmdWord 0x01 0 433920000) .t3 = true ∧
    nextIs (step (going 0x010019DD1800 .t3 0 0)) (fun t => t.standsAt (cmdWord 0x01 0 433920000) .t4) = true ∧
    nextIs (step { going 0x010019DD1800 .t3 0 0 with pendSfd := true })
      (fun t => t.standsAt (cmdWord 0x01 0 433920000) .t3 && !t.pendSfd) = true := by decide

/-- RetuneDropsTheRestOfTheFrame: acceptance of a `TUNE` in a reception; the three sessions; and from another session than
`RECEIVING` a step that leads there and one that does not. -/
theorem test_witness_retune : (receiving 5).mseq.busy = false ∧ (Instr.tune 433920000).wellFormed (receiving 5).cfg = true ∧
    ([.idle, .calibrating, .listening] : List Session).all (fun x => decide (x ≠ .receiving)) = true ∧
    sample.session ≠ .receiving ∧ sample.env.turns.head? ≠ some .rst ∧
    State.nextOp { sample with pendSfd := true } = some .evSfd ∧
    nextIs (step { sample with pendSfd := true }) (fun t => decide (t.session = .receiving)) = true ∧
    nextIs (step { sample with pendByte := true }) (fun t => decide (t.session = .idle) && decide (t.buf = sample.buf)) =
      true := by decide

/-- TuneEndsListening, RetuneDropsTheRestOfTheFrame, CalWritesOneWholeEntry, TunechRewritesTheStoredBytes,
SweepVisitsEveryChannelOnce. -/
theorem test_witness_runs : sample.atRest = true ∧ (Instr.tune 433920000).wellFormed sample.cfg = true ∧
    (Instr.cal 1 915000000).wellFormed sample.cfg = true ∧ (Instr.tunech 1).wellFormed sample.cfg = true ∧
    sample.cfg.wf = true := by decide

/-- CalFirstMicroSteps, CalLastMicroSteps. -/
theorem test_witness_cal_steps : (1 : Byte).toNat < sample.cfg.numChannels ∧
    freqWord sample.cfg (915000000 : Word32).toNat < 2 ^ 24 ∧
    ([.c2, .c3, .c4First, .c4Second, .c5, .c6, .c7, .c8] : List Micro).all (fun m =>
      (going 0x02013689CAC0 m 0 0).standsAt (cmdWord 0x02 1 915000000) m) = true := by decide

/-- TunechMicroSteps. -/
theorem test_witness_tunech_steps :
    ([.u2, .u3] : List Micro).all (fun m => (going 0x030100000000 m 0 0).standsAt (cmdWord 0x03 1 0) m) = true := by decide

/-- SweepMicroSteps, SweepSamplesOneChannel: every micro-step, and both clauses of the dwell. -/
theorem test_witness_sweep_steps : 0 < sample.cfg.numChannels ∧
    ([.s0Syn, .s0Cal, .s1, .s2, .s3, .s4, .sEnd] : List Micro).all (fun m =>
      (going 0x040000000000 m 0 1).standsAt 0x040000000000 m) = true ∧
    (going 0x040000000000 .s2 0 1).mseq.n + 1 = sample.cfg.dwellIter ∧
    (going 0x040000000000 .s2 0 1).mseq.n + 1 < Config.dwellIter { sample.cfg with dwellIter := 2 } := by decide

/-- OnlyCalLowersTheMaximum: the sample step of a sweep is a step it is about. -/
theorem test_witness_maximum : (going 0x040000000000 .s3 0 1).env.turns.head? ≠ some .rst ∧
    (going 0x040000000000 .s3 0 1).mseq.op ≠ 0x02 ∧ ∃ t, step (going 0x040000000000 .s3 0 1) = .next t :=
  ⟨by decide, by decide, _, rfl⟩

/-- ByteIsStoredAtTheCursor (first and last cursor), TenthByteCompletesTheFrame, ByteIsDroppedOutsideAReception (both
alternatives). -/
theorem test_witness_byte : (receiving 0).session = .receiving ∧ (receiving 0).cursor.toNat < frameLen - 2 ∧
    (receiving 8).cursor.toNat < frameLen - 2 ∧ (receiving 9).cursor.toNat = frameLen - 2 ∧
    sample.session ≠ .receiving ∧ frameLen - 1 ≤ (receiving 10).cursor.toNat := by decide

/-- FrameIsAssembledCompletely, FurtherBytesChangeNothing. -/
theorem test_witness_frame : sample.atRest = true ∧
    ([0x12, 0x34, 0x56, 0x78, 0x9A, 0xBC, 0xDE, 0xF0] : List Byte).length = dataBytes ∧
    complete.atRest = true ∧ complete.session ≠ .receiving := by decide

/-- ReceptionHoldsTheBytesReadSinceFrameStart: a reception of one byte, and its next byte pending. -/
theorem test_witness_reception :
    State.Inv { receiving 1 with pendByte := true, pendData := some 0x34 } ∧
    State.Receiving { receiving 1 with pendByte := true, pendData := some 0x34 } [0x12] ∧
    ∃ t, step { receiving 1 with pendByte := true, pendData := some 0x34 } = .next t :=
  ⟨⟨by decide, by decide, by decide, by decide, by decide, by decide, by decide⟩,
    ⟨rfl, by decide, by decide, fun k hk => by
      have : k = 0 := by simpa [storedImage] using hk
      subst this
      rfl⟩, _, rfl⟩

/-- ReceptionHoldsTheBytesReadSinceFrameStart, the completion: nine raw bytes read, the tenth pending. The step that completes
the frame takes the one offset draw there is. -/
theorem test_witness_completion :
    receivedNine.Inv ∧
    receivedNine.Receiving [0x12, 0x34, 0x56, 0x78, 0x9A, 0xBC, 0xDE, 0xF0, 0xA8] ∧
    receivedNine.rawAfter [0x12, 0x34, 0x56, 0x78, 0x9A, 0xBC, 0xDE, 0xF0, 0xA8] =
      [0x12, 0x34, 0x56, 0x78, 0x9A, 0xBC, 0xDE, 0xF0] ++ [0xA8, 0xB0] ∧
    nextIs (step receivedNine) (fun t => decide (t.session = .frameReady) && decide (t.bufRead idxFoe = 0xFD)) = true :=
  ⟨⟨by decide, by decide, by decide, by decide, by decide, by decide, by decide⟩,
    ⟨rfl, by decide, by decide, by unfold State.bufHolds; decide⟩, by decide, by decide⟩

/-- HandlersLeaveTheMainContextAlone, HandlersDoNotReadTheMainContext. -/
theorem test_witness_handlers : ([.evSfd, .evByte 0xA5, .evOvf] : List Instr).all Instr.isEvent = true ∧
    nextIs (exec (.evByte 0xA5) (receiving 9)) (fun _ => true) = true := by decide

/-- CommandsNeverWriteTheBuffer, and FlagsChangeOnlyWhereTheRulesSay where each flag rises and falls. -/
theorem test_witness_flags : Instr.clrrdy.isEvent = false ∧
    nextIs (exec (.evByte 0xB0) (receiving 9)) (fun t => t.frameReady) = true ∧
    nextIs (exec .clrrdy complete) (fun t => !t.frameReady) = true ∧
    nextIs (exec .evOvf sample) (fun t => t.error) = true ∧
    nextIs (exec (.tune 433920000) { going 0x010019DD1800 .t6 0 0 with error := true, frameReady := true })
      (fun t => !t.error && !t.frameReady) = true := by decide

/-- FlagsChangeOnlyWhereTheRulesSay and SessionChangesOnlyAsTabulated, of a step: the completion, `CLRRDY` from the port, and a
reset. -/
theorem test_witness_flag_steps :
    receivedNine.nextOp = some (.evByte 0xB0) ∧ nextIs (step receivedNine) (fun t => t.frameReady) = true ∧
    State.nextOp { complete with env := { complete.env with cmds := [0x080000000000] } } = some .clrrdy ∧
    nextIs (step { complete with env := { complete.env with cmds := [0x080000000000] } })
      (fun t => !t.frameReady && decide (t.session = .idle)) = true ∧
    (withTurn .rst complete).env.turns.head? = some .rst ∧
    nextIs (step (withTurn .rst { complete with error := true }))
      (fun t => !t.frameReady && !t.error && decide (t.session = .idle)) = true := by decide

/-- SessionChangesOnlyAsTabulated: a step that changes the session. -/
theorem test_witness_session : ∃ t, exec .evSfd sample = .next t ∧ t.session ≠ sample.session :=
  ⟨_, rfl, by decide⟩

/-- TableReadsAnswerTheEntry, RdbufAnswersTheStoredByte, and the other reads of a ready block. -/
theorem test_witness_reads : sample.mseq.busy = false ∧ (1 : Byte).toNat < sample.cfg.numChannels ∧
    (10 : Byte).toNat ≤ frameLen - 1 ∧ Sparse.get? sample.buf 8 = some 0xA8 := by decide

/-- OneChangedByteChangesTheChecksum, with the checksums of V-CRC-4. -/
theorem test_witness_checksum : (0x00 : Byte) ≠ 0x01 ∧ crc16 [1, 0, 0, 0, 0, 0, 0, 0] = 0x47D3 ∧
    crc16 [0, 0, 0, 0, 0, 0, 0, 0] = 0 := by decide +kernel

/-- DecoderFollowsTheOpcodeTable has both outcomes. -/
theorem test_witness_rows : (∃ i, decodeCommand 0x010019DD1800 = .ok i) ∧ (∃ e, decodeCommand 0 = .error e) ∧
    (∃ i, decodeEvent 0x1FF = .ok i) ∧ ∃ e, decodeEvent 0 = .error e :=
  ⟨⟨.tune 433920000, by decide⟩, ⟨.reservedOp, by decide⟩, ⟨.evSfd, by decide⟩, ⟨.noEvent, by decide⟩⟩

/-! ## The draws of a listing -/

/-- 30_encoding.md R80's two polls, V-SYN-2's T2, and a list shorter than the polls, up to the limit of V-SYN-3's T2. -/
theorem test_poll_lists : pollDraws .idle 3 .other [.idle] = [.other, .idle] ∧
    pollDraws .idle 3 .rx [.rx, .idle] = [.rx, .rx, .idle] ∧ pollDraws .idle 2 .rx [] = [.rx, .rx, .rx] := by decide

/-- V-FRM-8's last event with its poll list given short: two polls of the receive mode, then the completion; the draws that
were in the scripts before stay there. -/
theorem test_line_completion :
    nextIs (runLines 2 [⟨[.evByte 0xB0], [.mode .rx [], .foe 0xFE]⟩]
      { receiving 9 with cfg := { Config.vectors with pollMaxIsr := 1 } })
      (fun t => decide (t.session = .frameReady) && decide (t.bufRead 10 = 0xFE) && decide (t.env.modes = sample.env.modes) &&
        decide (t.env.foes = sample.env.foes)) = true := by decide

/-- V-SYN-3 with both poll lists given short: the waits give up after three and two polls, in fourteen micro-steps. -/
theorem test_line_timeouts :
    nextIs (runLines 14 [⟨[.tune 433920000], [.mode .rx [], .mode .cal []]⟩]
      { sample with cfg := { Config.vectors with pollMaxIdle := 2, pollMaxRx := 1 } })
      (fun t => t.atRest && decide (t.session = .listening) && decide (t.rsp = 433920000) &&
        decide (t.env.modes = sample.env.modes)) = true := by decide

/-! ## The assumptions about the radio hold together -/

/-- The state after one step. -/
def after (s : State) : State :=
  match step s with
  | .next t => t
  | .fault _ => s
  | .refused _ => s

/-- The example of 42_frame.md R113: in a reception with cursor 5 an overflow arrives, its handler reads `R_IDLE`, and then
nothing comes. -/
def overflowRun : Nat → State
  | 0 => withTurn (.event 0x300) (receiving 5)
  | 1 => after (withTurn (.event 0x300) (receiving 5))
  | 2 => after (after (withTurn (.event 0x300) (receiving 5)))
  | _ + 3 => after (after (after (withTurn (.event 0x300) (receiving 5))))

/-- The radio receives until the handler strobes it idle. -/
def overflowRadio : Nat → RMode
  | 0 => .rx
  | 1 => .rx
  | _ + 2 => .idle

/-- What each step of the run reads and strobes. -/
theorem test_overflow_run :
    IsRun overflowRun ∧ (overflowRun 0).eventNext = some .evOvf ∧
    (overflowRun 0).modesRead = [] ∧ (overflowRun 1).modesRead = [.idle] ∧ (∀ k, (overflowRun (k + 2)).modesRead = []) ∧
    strobeIn overflowRun 0 = none ∧ strobeIn overflowRun 1 = some .idle ∧ ∀ k, strobeIn overflowRun (k + 2) = none := by
  refine ⟨?_, by decide, by decide, by decide, ?_, by decide, by decide, ?_⟩
  · rintro (_ | _ | _ | k) <;> rfl
  · rintro (_ | k) <;> rfl
  · rintro (_ | k) <;> rfl

/-- R157, R158 and R160 all hold of that run: the overflow is raised while the radio receives, and the poll reads idle. -/
theorem test_overflow_radio :
    IdleStrobeObeyed overflowRun overflowRadio ∧ ReceiveStrobeObeyed overflowRun overflowRadio ∧
    IdleRadioIsQuiet overflowRun overflowRadio ∧ OverflowOnlyWhenBusy overflowRun overflowRadio := by
  obtain ⟨-, h0, -, m1, m2, s0, s1, s2⟩ := test_overflow_run
  have strobe : ∀ j x, strobeIn overflowRun j = some x → j = 1 ∧ x = .idle := by
    rintro (_ | _ | j) x h
    · rw [s0] at h
      cases h
    · rw [s1] at h
      cases h
      exact ⟨rfl, rfl⟩
    · rw [s2] at h
      cases h
  have idle : ∀ (p : Instant) x, p.after 1 → modeAt overflowRun overflowRadio p = some x → x = .idle := by
    rintro ⟨_ | _ | k, i⟩ x ha h
    · simp [Instant.after] at ha
    · rcases i with _ | _ | i
      · simp [Instant.after] at ha
      · simpa [modeAt, m1, eq_comm] using h
      · simp [modeAt, m1] at h
    · rcases i with _ | i
      · simpa [modeAt, overflowRadio, eq_comm] using h
      · simp [modeAt, m2] at h
  have noEvent : ∀ k, (overflowRun (k + 1)).eventNext = none := by rintro (_ | _ | k) <;> rfl
  have noByte : ∀ k, (overflowRun (k + 1)).byteNext = false := by rintro (_ | _ | k) <;> rfl
  refine ⟨fun j hj => ?_, fun j hj => ?_, fun k hk => ?_, fun k hk => ?_⟩
  · obtain ⟨rfl, -⟩ := strobe j _ hj
    exact ⟨fun _ => ⟨2, fun p x hp => idle p x (.inl hp)⟩,
      fun p q hp hq _ _ x => idle q x (by unfold Instant.after Instant.le at *; omega)⟩
  · exact absurd (strobe j _ hj).2 (by decide)
  · rcases k with _ | k
    · exact absurd hk (by decide)
    · simp [noEvent, noByte] at hk
  · rcases k with _ | k
    · exact ⟨⟨0, 0⟩, .rx, .inl rfl, rfl, by decide⟩
    · simp [noEvent] at hk

/-- A frame-start and one byte arrive while the radio receives, each is handled, then an overflow cuts the reception. -/
def cutReception : State :=
  { sample with
    session := .listening
    env := { sample.env with turns := [.event 0x100, .block, .event 0x212, .block, .event 0x300] } }

/-- The run from there; nothing comes after its seventh step. -/
def cutRun : Nat → State
  | 0 => cutReception
  | 1 => after cutReception
  | 2 => after^[2] cutReception
  | 3 => after^[3] cutReception
  | 4 => after^[4] cutReception
  | 5 => after^[5] cutReception
  | 6 => after^[6] cutReception
  | _ + 7 => after^[7] cutReception

/-- The radio receives until the overflow's handler strobes it idle. -/
def cutRadio (k : Nat) : RMode := if k ≤ 5 then .rx else .idle

/-- R159 holds of that run, in which no reception is in progress at first; ten byte events are to come after the frame-start
and nine after the byte. -/
theorem test_reception_shape : IsRun cutRun ∧ ReceptionShape cutRun cutRadio 0 ∧
    bytesLeft cutRun 0 1 = 10 ∧ bytesLeft cutRun 0 3 = 9 := by
  have noEvent : ∀ k, (cutRun (k + 7)).eventNext = none := fun _ => rfl
  have noByte : ∀ k, (cutRun (k + 7)).byteNext = false := fun _ => rfl
  refine ⟨?_, ⟨?_, ?_, ?_⟩, by decide, by decide⟩
  · rintro (_ | _ | _ | _ | _ | _ | _ | k) <;> rfl
  · rintro (_ | _ | _ | _ | _ | _ | _ | k) h
    · exact ⟨⟨0, 0⟩, .inl rfl, rfl⟩
    all_goals first | exact absurd h (by decide) | simp [noEvent] at h
  · rintro (_ | _ | _ | _ | _ | _ | _ | k) h
    · exact absurd h (by decide)
    · exact absurd h (by decide)
    · exact ⟨⟨⟨2, 0⟩, .inl rfl, rfl⟩, by decide⟩
    all_goals first | exact absurd h (by decide) | simp [noByte] at h
  · rintro (_ | _ | _ | _ | _ | _ | _ | k) h
    · exact ⟨4, by decide, .inr (.inr (.inl (by decide)))⟩
    all_goals first | exact absurd h (by decide) | simp [noEvent] at h

/-- R159 refuses a byte event with no reception, and a frame-start outside receive mode. -/
theorem test_reception_shape_refuses (radio : Nat → RMode) (run : Nat → State) (h0 : radio 0 = .idle) :
    (run 0 = withTurn (.event 0x212) sample → ¬ ReceptionShape run radio 0) ∧
    (run 0 = withTurn (.event 0x100) sample → ¬ ReceptionShape run radio 0) := by
  refine ⟨fun h hs => ?_, fun h hs => ?_⟩
  · exact Nat.lt_irrefl 0 (hs.byte 0 (by rw [h]; decide)).2
  · obtain ⟨p, hp, hm⟩ := hs.start 0 (by rw [h]; decide)
    rcases hp with rfl | ⟨hp, -⟩
    · simp [modeAt, h0] at hm
    · exact absurd hp (Nat.not_lt_zero _)

end Sys2Proof.Machine
end

section
/-! The limit of the fixed-point conversion (spec/40_synth.md R81 to R83, 00_scope.md R7): when `freq_word` stays below a
bound, and that it grows with the frequency. -/

namespace Sys2Proof.Machine

/-- R81's quotient below a bound, without the division. -/
theorem freqWord_lt_iff {c : Config} (hc : 0 < c.referenceHz) (hz w : Nat) :
    freqWord c hz < w ↔ 2 * hz * 65536 + c.referenceHz < w * (2 * c.referenceHz) :=
  Nat.div_lt_iff_lt_mul (Nat.mul_pos Nat.two_pos hc)

theorem freqWord_le_freqWord (c : Config) {a b : Nat} (h : a ≤ b) : freqWord c a ≤ freqWord c b := by
  have hnum : 2 * a * 2 ^ fracBits + c.referenceHz ≤ 2 * b * 2 ^ fracBits + c.referenceHz := by gcongr
  exact Nat.div_le_div_right hnum

/-- An admitted configuration represents the top of its band (92_eei_decisions.md P7). -/
theorem freqWord_bandHiHz_lt_of_wf {c : Config} (h : c.wf = true) : freqWord c c.bandHiHz < 2 ^ 24 := by
  rw [Config.wf, Bool.and_eq_true] at h
  exact of_decide_eq_true h.2

/-- Settles O18: the largest operand is `2 ^ 32 - 1`, and `freqWord_lt_iff` makes both clauses linear in it. -/
theorem overflowNeedsALowReference : Obligations.OverflowNeedsALowReference := by
  refine ⟨fun c hz hc => ?_, fun c hz hc => ?_⟩
  · have hmax : hz.toNat < 2 ^ 32 := hz.isLt
    rw [freqWord_lt_iff (by omega)]
    omega
  · rw [← Nat.not_lt, freqWord_lt_iff (by omega), hc]
    omega

/-- Settles O19: `freqWord` grows with the frequency, and the top of the band has a word. -/
theorem bandFrequenciesAreAdmitted : Obligations.BandFrequenciesAreAdmitted := by
  intro c hz hwf _ hhi
  have hlt : freqWord c hz.toNat < 2 ^ 24 :=
    (freqWord_le_freqWord c hhi).trans_lt (freqWord_bandHiHz_lt_of_wf hwf)
  exact decide_eq_true hlt

end Sys2Proof.Machine
end

section
/-! The converse of decoding (spec/30_encoding.md R71, R73): a word that decodes is the word of its operation. -/

namespace Sys2Proof

theorem ifZero_eq_ok {zero : Bool} {i j : Instr} : ifZero zero i = .ok j ↔ zero = true ∧ i = j := by
  unfold ifZero
  cases zero <;> simp

/-- A command word by its opcode, which the decoder compares as a number, and its two other fields. -/
theorem cmdWord_eq_of_fields {w : BitVec 48} {op idx : Byte} {arg : Word32} (hop : (cmdOp w).toNat = op.toNat)
    (hidx : cmdIdx w = idx) (harg : cmdArg w = arg) : cmdWord op idx arg = w := by
  rw [← cmdWord_fields w, cmdWord_inj]
  exact ⟨(BitVec.eq_of_toNat_eq hop).symm, hidx.symm, harg.symm⟩

/-- The rows with a must-be-zero field all go alike: the check gives the field back as 0. `CAL` (`h_2`) has none, and that
of `CRCUPD` (`h_14`) is the upper part of its argument. -/
theorem encode_of_decodeCommand {w : BitVec 48} {i : Instr} (h : decodeCommand w = .ok i) : encode i = .command w := by
  unfold decodeCommand at h
  dsimp only at h
  split at h
  case h_2 hop =>
    cases h
    exact congrArg PortWord.command (cmdWord_eq_of_fields hop rfl rfl)
  case h_14 hop =>
    simp only [ifZero_eq_ok, Bool.and_eq_true, decide_eq_true_eq] at h
    obtain ⟨⟨hidx, hhigh⟩, rfl⟩ := h
    exact congrArg PortWord.command (cmdWord_eq_of_fields hop hidx (append_argByte _ hhigh).symm)
  case h_16 => cases h
  all_goals
    rename_i hop
    simp only [ifZero_eq_ok, Bool.and_eq_true, decide_eq_true_eq] at h
    obtain ⟨hzero, rfl⟩ := h
    exact congrArg PortWord.command (cmdWord_eq_of_fields hop (by simp [hzero]) (by simp [hzero]))

end Sys2Proof
end

section
/-! The base case of the invariant (spec/10_state.md R42): no command is in progress after reset, and both stores list
nothing. -/

namespace Sys2Proof.Machine

theorem State.inv_resetWith {c : Config} (hc : c.wf = true) (e : Env) (n : Nat) : (State.resetWith c e n).Inv where
  cfg := hc
  buf := rfl
  tab := rfl
  cursor := Nat.zero_le _
  receiving h := Session.noConfusion h
  notInIsr := rfl
  mseq h := Bool.noConfusion h

/-- Settles O10: the power-on reset is the reset with the test vectors' configuration, which is admitted. -/
theorem resetSatisfiesTheInvariant : Obligations.ResetSatisfiesTheInvariant :=
  ⟨State.inv_resetWith (c := Config.vectors) (by decide) Env.silent 0, fun _ e n hc => State.inv_resetWith hc e n⟩

end Sys2Proof.Machine
end

section
/-! What the handlers of the radio events do to the state (spec/42_frame.md R110 to R114): the cases of the byte handler,
and the items no handler writes. -/

namespace Sys2Proof.Machine

/-- The byte handler drops the byte (R114), stores it (R111), or stores the last one and completes the frame (R112). -/
theorem exec_evByte_cases {s t : State} {b : Byte} (h : exec (.evByte b) s = .next t) :
    (s.storesByte = false ∧ t = s.returnFromEvent) ∨
    (s.storesByte = true ∧ s.completes = false ∧
      t = { s.rxRead.appendByte b with cursor := s.cursor + 1 }.returnFromEvent) ∨
    (s.storesByte = true ∧ s.completes = true ∧
      t = { s.rxRead.appendByte b with cursor := s.cursor + 1 }.complete.returnFromEvent) := by
  have hcur : (s.rxRead.appendByte b).cursor = s.cursor := by
    rw [State.appendByte_eq]
    rfl
  change execEvByte b s = .next t at h
  unfold execEvByte at h
  split at h
  · rename_i hst
    have hlt : s.cursor.toNat < frameLen - 1 := by
      rw [State.storesByte, Bool.and_eq_true] at hst
      exact of_decide_eq_true hst.2
    have hadd : (s.cursor + 1).toNat = s.cursor.toNat + 1 :=
      BitVec.toNat_add_of_lt (show s.cursor.toNat + 1 < 16 by rw [frameLen_eq] at hlt; omega)
    dsimp only at h
    rw [hcur, hadd] at h
    split at h
    · rename_i hlast
      cases h
      have hcomp : s.completes = true := by
        rw [State.completes, hst, Bool.true_and]
        exact decide_eq_true (by omega)
      exact .inr (.inr ⟨hst, hcomp, rfl⟩)
    · rename_i hmore
      cases h
      have hcomp : s.completes = false := by
        rw [State.completes, hst, Bool.true_and]
        exact decide_eq_false (by omega)
      exact .inr (.inl ⟨hst, hcomp, rfl⟩)
  · rename_i hst
    cases h
    exact .inl ⟨by simpa using hst, rfl⟩

/-- R112: where a byte completes a frame. -/
theorem State.receiving_of_completes {s : State} (h : s.completes = true) :
    s.session = .receiving ∧ s.cursor.toNat = frameLen - 2 := by
  simp only [State.completes, State.storesByte, Bool.and_eq_true, decide_eq_true_eq] at h
  obtain ⟨⟨hrec, -⟩, hcur⟩ := h
  exact ⟨hrec, hcur⟩

/-- A handler leaves the main sequencer, the response and its pulse to the main context. -/
theorem exec_event_frame {i : Instr} {s t : State} (hi : i.isEvent = true) (h : exec i s = .next t) :
    t.mseq = s.mseq ∧ t.rsp = s.rsp ∧ t.out.rspValid = s.out.rspValid := by
  cases i with
  | evSfd =>
    cases h
    exact ⟨rfl, rfl, rfl⟩
  | evByte b =>
    rcases exec_evByte_cases h with ⟨-, rfl⟩ | ⟨-, -, rfl⟩ | ⟨-, -, rfl⟩
    · exact ⟨rfl, rfl, rfl⟩
    · rw [State.appendByte_eq]
      exact ⟨rfl, rfl, rfl⟩
    · rw [State.complete_eq, State.appendByte_eq]
      exact ⟨rfl, rfl, rfl⟩
  | evOvf =>
    cases h
    exact ⟨rfl, rfl, rfl⟩
  | _ => exact Bool.noConfusion hi

end Sys2Proof.Machine
end

section
/-! What a step of a command can be (spec/20_memory.md R50, R66), in terms of its next micro-step. -/

namespace Sys2Proof

/-- The first micro-step of a command. -/
def Instr.firstMicro (c : Config) : Instr → Machine.Micro
  | .tune _ => .t1
  | .cal _ _ => .c1
  | .tunech _ => .u1
  | .sweep => Machine.sweepFirst c
  | _ => .only

/-- What a command in progress does at its next micro-step; `exec_command` ties it to `exec`. -/
def Instr.micro : Instr → Machine.State → Machine.State
  | .tune hz => Machine.tuneMicro hz
  | .cal ch hz => Machine.calMicro ch hz
  | .tunech ch => Machine.tunechMicro ch
  | .sweep => Machine.sweepMicro
  | .clrrdy => fun t => t.clearReady.finish 0
  | .rdbuf i => fun t => t.finish ((t.bufRead i.toNat).setWidth 32)
  | .rdstat => fun t => t.finish t.status
  | .rdsyn => fun t => t.finish (t.syn.setWidth 32)
  | .rdchf ch => fun t => t.finish (t.entry ch.toNat).freq
  | .rdchs ch => fun t => t.finish ((t.entry ch.toNat).syn.setWidth 32)
  | .rdchc ch => fun t => t.finish ((t.entry ch.toNat).cal.setWidth 32)
  | .rdchr ch => fun t => t.finish ((t.entry ch.toNat).strengths.setWidth 32)
  | .crcclr => fun t => (t.setCrc crcInit).finish 0
  | .crcupd b => fun t => (t.setCrc (Machine.crcByte t.crc b)).finish ((Machine.crcByte t.crc b).setWidth 32)
  | .crcrd => fun t => t.finish (t.crc.setWidth 32)
  | .evSfd => id
  | .evByte _ => id
  | .evOvf => id

end Sys2Proof

namespace Sys2Proof.Machine

/-- A command is the run of the sequencer with its word and its micro-steps. -/
theorem exec_command {i : Instr} {w : BitVec 48} (hi : encode i = .command w) (s : State) :
    ∃ check, exec i s = s.runMicro w check (i.firstMicro s.cfg) i.micro := by
  cases i with
  | tune hz => cases hi; exact ⟨_, exec_tune s hz⟩
  | cal ch hz => cases hi; exact ⟨_, exec_cal s ch hz⟩
  | tunech ch => cases hi; exact ⟨_, exec_tunech s ch⟩
  | sweep => cases hi; exact ⟨_, exec_sweep s⟩
  | clrrdy => cases hi; exact ⟨_, exec_clrrdy s⟩
  | rdbuf k => cases hi; exact ⟨_, exec_rdbuf s k⟩
  | rdstat => cases hi; exact ⟨_, exec_rdstat s⟩
  | rdsyn => cases hi; exact ⟨_, exec_rdsyn s⟩
  | rdchf ch => cases hi; exact ⟨_, exec_rdchf s ch⟩
  | rdchs ch => cases hi; exact ⟨_, exec_rdchs s ch⟩
  | rdchc ch => cases hi; exact ⟨_, exec_rdchc s ch⟩
  | rdchr ch => cases hi; exact ⟨_, exec_rdchr s ch⟩
  | crcclr => cases hi; exact ⟨_, exec_crcclr s⟩
  | crcupd b => cases hi; exact ⟨_, exec_crcupd s b⟩
  | crcrd => cases hi; exact ⟨_, exec_crcrd s⟩
  | evSfd => cases hi
  | evByte b => cases hi
  | evOvf => cases hi

/-- The three ways a command answers a next state: its acceptance with the first micro-step, its next micro-step, or nothing,
because another word is in progress. -/
theorem exec_command_next {i : Instr} {w : BitVec 48} {s t : State} (hi : encode i = .command w)
    (h : exec i s = .next t) :
    (s.mseq.busy = false ∧ t = i.micro (s.accept w (i.firstMicro s.cfg))) ∨
    (s.mseq.busy = true ∧ s.mseq.word = w ∧ t = i.micro s) ∨
    (s.mseq.busy = true ∧ s.mseq.word ≠ w ∧ t = s) := by
  obtain ⟨check, hrun⟩ := exec_command hi s
  rw [hrun] at h
  rcases State.runMicro_next h with ⟨hb, -, ht⟩ | hgoing | hother
  · exact .inl ⟨hb, ht⟩
  · exact .inr (.inl hgoing)
  · exact .inr (.inr hother)

/-- An item that neither the poll, nor the tick, nor what follows the wait writes is unchanged. -/
theorem State.waitPoll_unchanged {α : Type} (f : State → α) {s : State} {m : RMode} {limit : Nat} {tick : Micro}
    {done : State → State} (hpoll : f { s with env := s.env.afterMode } = f s)
    (htick : f { s with env := s.env.afterMode, mseq := { s.mseq with step := tick } } = f s)
    (hdone : ∀ u, f (done u) = f u) : f (s.waitPoll m limit tick done) = f s := by
  rcases s.waitPoll_cases m limit tick done with ⟨-, e⟩ | ⟨-, -, e⟩
  · rw [e, hdone, hpoll]
  · rw [e, htick]

end Sys2Proof.Machine
end

section
/-! How a command answers (spec/20_memory.md R50, R66, 10_state.md R23, R40): each micro-step but the last leaves the latched
word and the response, and the last one writes `RSP` and pulses `rsp_valid`. -/

namespace Sys2Proof.Machine

/-- The items that acceptance and the last micro-step of a command write, and nothing else: `busy`, the latched word, `RSP`
and its pulse. -/
def State.response (s : State) : Bool × BitVec 48 × Word32 × Bool := (s.mseq.busy, s.mseq.word, s.rsp, s.out.rspValid)

/-- Between `s` and `t` the command whose word is `w` either stays in progress without a response, or ends with it. -/
def Responds (w : BitVec 48) (s t : State) : Prop :=
  t.mseq.word = w ∧ t.out.rspValid = !t.mseq.busy ∧ (t.mseq.busy = true → t.rsp = s.rsp)

/-- A command in progress that writes none of these items stays in progress. -/
theorem Responds.of_response {s t : State} (hb : s.mseq.busy = true) (hv : s.out.rspValid = false)
    (h : t.response = s.response) : Responds s.mseq.word s t := by
  simp only [State.response, Prod.mk.injEq] at h
  obtain ⟨hbusy, hword, hrsp, hvalid⟩ := h
  exact ⟨hword, by rw [hvalid, hv, hbusy, hb]; rfl, fun _ => hrsp⟩

/-- The last micro-step of a command answers. -/
theorem Responds.finish {s t : State} (h : t.mseq.word = s.mseq.word) (v : Word32) :
    Responds s.mseq.word s (t.finish v) :=
  ⟨h, rfl, fun hb => Bool.noConfusion hb⟩

/-- Stated of any word `v`, so that a proof about `SynWrite` never looks into R81's quotient. -/
theorem State.synWrite_goto_response (s : State) (v : Word24) (m : Micro) :
    ((s.synWrite v).goto m).response = s.response := rfl

section
variable {s : State} (hb : s.mseq.busy = true) (hv : s.out.rspValid = false)
include hb hv

theorem tuneMicro_responds (hz : Word32) : Responds s.mseq.word s (tuneMicro hz s) := by
  unfold tuneMicro
  cases s.mseq.step
  case t2Poll => exact .of_response hb hv (State.waitPoll_unchanged _ rfl rfl fun _ => rfl)
  case t4 => exact .of_response hb hv (State.synWrite_goto_response s _ _)
  case t7Poll => exact .of_response hb hv (State.waitPoll_unchanged _ rfl rfl fun _ => rfl)
  case t8 => exact .finish rfl hz
  all_goals exact .of_response hb hv rfl

theorem calMicro_responds (ch : Byte) (hz : Word32) : Responds s.mseq.word s (calMicro ch hz s) := by
  unfold calMicro
  cases s.mseq.step
  case c1 => exact .of_response hb hv (State.synWrite_goto_response s _ _)
  case c8 => exact .finish rfl hz
  all_goals exact .of_response hb hv rfl

theorem tunechMicro_responds (ch : Byte) : Responds s.mseq.word s (tunechMicro ch s) := by
  unfold tunechMicro
  cases s.mseq.step
  case u3 => exact .finish rfl 0
  all_goals exact .of_response hb hv rfl

theorem sweepMicro_responds : Responds s.mseq.word s (sweepMicro s) := by
  unfold sweepMicro
  cases s.mseq.step
  case s2 =>
    dsimp only
    split <;> exact .of_response hb hv rfl
  case sEnd => exact .finish rfl 0
  all_goals exact .of_response hb hv rfl

theorem micro_responds (i : Instr) : Responds s.mseq.word s (i.micro s) := by
  cases i with
  | tune hz => exact tuneMicro_responds hb hv hz
  | cal ch hz => exact calMicro_responds hb hv ch hz
  | tunech ch => exact tunechMicro_responds hb hv ch
  | sweep => exact sweepMicro_responds hb hv
  | evSfd => exact .of_response hb hv rfl
  | evByte b => exact .of_response hb hv rfl
  | evOvf => exact .of_response hb hv rfl
  | _ => exact .finish rfl _

end

/-- R50, R66: a step of a command, from a busy block (whatever word it holds) and from a ready one, which latches the
word. -/
theorem exec_command_responds {i : Instr} {w : BitVec 48} {s t : State} (hi : encode i = .command w)
    (hv : s.out.rspValid = false) (h : exec i s = .next t) : Responds (if s.mseq.busy then s.mseq.word else w) s t := by
  rcases exec_command_next hi h with ⟨hb, rfl⟩ | ⟨hb, -, rfl⟩ | ⟨hb, -, rfl⟩ <;> rw [hb]
  · have hacc := micro_responds (s := s.accept w (i.firstMicro s.cfg)) rfl hv i
    rw [State.accept_word] at hacc
    exact hacc
  · exact micro_responds hb hv i
  · exact .of_response hb hv rfl

/-- In every step but a reset the main context takes a micro-step of the command in progress or of the word it accepts; or
the sequencer and the response stay and nothing pulses, which in the main context's turn means that no word is on the port
(or a busy sequencer holds no command: log 8). -/
theorem step_responds {s t : State} (hr : s.env.turns.head? ≠ some .rst) (h : step s = .next t) :
    (s.mseq.busy = true ∧ Responds s.mseq.word s t) ∨
    (s.mseq.busy = false ∧ s.mainTurn = true ∧ ∃ w rest, s.env.cmds = w :: rest ∧ Responds w s t) ∨
    ((s.mseq.busy = true ∨ s.mainTurn = false ∨ s.env.cmds = []) ∧
      t.mseq = s.mseq ∧ t.rsp = s.rsp ∧ t.out.rspValid = false) := by
  rcases step_cases h with ⟨w, rest, hturn, rfl⟩ | ⟨rest, hturn, rfl⟩ | ⟨hisr, rfl⟩ | ⟨-, hp, i, u, htake, hex⟩ |
    ⟨-, hb, i, hd, hex⟩ | ⟨-, hb, -, rfl⟩ | ⟨-, -, hc, rfl⟩ | ⟨hm, hb, w, rest, i, hc, hd, hex⟩
  · refine .inr (.inr ⟨.inr (.inl ?_), ?_⟩)
    · simp [State.mainTurn, State.blockTurn, hturn]
    · unfold State.arrive
      split <;> exact ⟨rfl, rfl, rfl⟩
  · exact absurd (by rw [hturn]; rfl) hr
  · exact .inr (.inr ⟨.inr (.inl (by simp [State.mainTurn, State.blockTurn, hisr])), rfl, rfl, rfl⟩)
  · refine .inr (.inr ⟨.inr (.inl (by simp [State.mainTurn, hp])), ?_⟩)
    rcases State.takeEvent_cases htake with ⟨-, rfl, rfl⟩ | ⟨-, -, rfl, rfl⟩ | ⟨-, -, -, rfl, rfl⟩ <;>
      exact exec_event_frame rfl hex
  · have hresp := exec_command_responds (encode_of_decodeCommand hd) rfl hex
    exact .inl ⟨hb, by rwa [if_pos (show s.onTurn.mseq.busy = true from hb)] at hresp⟩
  · exact .inr (.inr ⟨.inl hb, rfl, rfl, rfl⟩)
  · exact .inr (.inr ⟨.inr (.inr hc), rfl, rfl, rfl⟩)
  · have hresp := exec_command_responds (encode_of_decodeCommand hd) rfl hex
    rw [if_neg (ne_true_of_eq_false (show s.onTurn.takeCommand.mseq.busy = false from hb))] at hresp
    exact .inr (.inl ⟨hb, hm, w, rest, hc, hresp⟩)

/-- Settles O14: the three cases of `step_responds`. -/
theorem responseComesOnlyWithTheLastMicroStep : Obligations.ResponseComesOnlyWithTheLastMicroStep := by
  intro s t hr h
  rcases step_responds hr h with ⟨hb, hresp⟩ | ⟨hb, hm, w, rest, hc, hresp⟩ | ⟨hwait, hmseq, hrsp, hvalid⟩
  · refine ⟨fun _ => hresp, fun hb' => ?_, fun hb' => ?_⟩ <;> simp [hb] at hb'
  · refine ⟨fun hb' => by simp [hb] at hb', fun _ w' rest' _ hc' => ?_, fun _ hidle => ?_⟩
    · obtain ⟨rfl, -⟩ := List.cons.inj (hc.symm.trans hc')
      exact hresp
    · simp [hm, hc] at hidle
  · refine ⟨fun hb => ?_, fun hb w rest hm hc => ?_, fun _ _ => ⟨hmseq, hrsp, hvalid⟩⟩
    · rw [hmseq, hvalid, hb]
      exact ⟨rfl, rfl, fun _ => hrsp⟩
    · simp [hb, hm, hc] at hwait

end Sys2Proof.Machine
end

section
/-! Where `frame_ready` and `error` change (spec/10_state.md R25, R26, 42_frame.md R116 c). -/

namespace Sys2Proof.Machine

/-- `frame_ready` and `error`. -/
def State.flags (s : State) : Bool × Bool := (s.frameReady, s.error)

/-- Stated of any word `v`, as `State.synWrite_goto_response` is. -/
theorem State.synWrite_goto_flags (s : State) (v : Word24) (m : Micro) :
    ((s.synWrite v).goto m).flags = s.flags := rfl

theorem tuneMicro_flags (hz : Word32) {s : State} (h : s.mseq.step ≠ .t6) : (tuneMicro hz s).flags = s.flags := by
  unfold tuneMicro
  cases hstep : s.mseq.step
  case t2Poll => exact State.waitPoll_unchanged _ rfl rfl fun _ => rfl
  case t4 => exact State.synWrite_goto_flags s _ _
  case t6 => exact absurd hstep h
  case t7Poll => exact State.waitPoll_unchanged _ rfl rfl fun _ => rfl
  all_goals rfl

theorem calMicro_flags (ch : Byte) (hz : Word32) (s : State) : (calMicro ch hz s).flags = s.flags := by
  unfold calMicro
  cases s.mseq.step
  case c1 => exact State.synWrite_goto_flags s _ _
  all_goals rfl

theorem tunechMicro_flags (ch : Byte) (s : State) : (tunechMicro ch s).flags = s.flags := by
  unfold tunechMicro
  cases s.mseq.step <;> rfl

theorem sweepMicro_flags (s : State) : (sweepMicro s).flags = s.flags := by
  unfold sweepMicro
  cases s.mseq.step
  case s2 =>
    dsimp only
    split <;> rfl
  all_goals rfl

/-- Of the commands, only `CLRRDY` (R118) and `TUNE`'s T6 (40_synth.md R87) write a flag, and they clear it. -/
theorem micro_flags (i : Instr) (s : State) :
    (i.micro s).flags = s.flags ∨ (i = .clrrdy ∧ (i.micro s).flags = (false, s.error)) ∨
    ((∃ hz, i = .tune hz) ∧ s.mseq.step = .t6 ∧ (i.micro s).flags = (false, false)) := by
  cases i with
  | tune hz =>
    by_cases h6 : s.mseq.step = .t6
    · exact .inr (.inr ⟨⟨hz, rfl⟩, h6, congrArg State.flags (tuneMicro_t6 h6)⟩)
    · exact .inl (tuneMicro_flags hz h6)
  | cal ch hz => exact .inl (calMicro_flags ch hz s)
  | tunech ch => exact .inl (tunechMicro_flags ch s)
  | sweep => exact .inl (sweepMicro_flags s)
  | clrrdy => exact .inr (.inl ⟨rfl, rfl⟩)
  | _ => exact .inl rfl

theorem exec_command_flags {i : Instr} {w : BitVec 48} {s t : State} (hi : encode i = .command w)
    (h : exec i s = .next t) :
    t.flags = s.flags ∨ (i = .clrrdy ∧ t.flags = (false, s.error)) ∨
    ((∃ hz, i = .tune hz) ∧ s.atMicro .t6 ∧ t.flags = (false, false)) := by
  rcases exec_command_next hi h with ⟨-, rfl⟩ | ⟨hb, -, rfl⟩ | ⟨-, -, rfl⟩
  · rcases micro_flags i (s.accept w (i.firstMicro s.cfg)) with hf | hf | ⟨⟨hz, rfl⟩, h6, -⟩
    · exact .inl hf
    · exact .inr (.inl hf)
    · exact Micro.noConfusion h6
  · rcases micro_flags i s with hf | hf | ⟨hi', h6, hf⟩
    · exact .inl hf
    · exact .inr (.inl hf)
    · exact .inr (.inr ⟨hi', ⟨hb, h6⟩, hf⟩)
  · exact .inl rfl

/-- All that an operation can do to the flags: nothing; the completion of a frame; the overflow handler; `CLRRDY`; and
`TUNE`'s T6. -/
theorem exec_flags {i : Instr} {s t : State} (h : exec i s = .next t) :
    t.flags = s.flags ∨
    ((∃ b, i = .evByte b) ∧ s.completes = true ∧ t.session = .frameReady ∧ t.flags = (true, s.error)) ∨
    (i = .evOvf ∧ t.session = .overflowError ∧ t.flags = (s.frameReady, true)) ∨
    (i = .clrrdy ∧ t.flags = (false, s.error)) ∨
    ((∃ hz, i = .tune hz) ∧ s.atMicro .t6 ∧ t.flags = (false, false)) := by
  cases hw : encode i with
  | command w =>
    rcases exec_command_flags hw h with hf | hf | hf
    · exact .inl hf
    · exact .inr (.inr (.inr (.inl hf)))
    · exact .inr (.inr (.inr (.inr hf)))
  | event w =>
    cases i with
    | evSfd =>
      cases h
      exact .inl rfl
    | evByte b =>
      rcases exec_evByte_cases h with ⟨-, rfl⟩ | ⟨-, -, rfl⟩ | ⟨-, hcomp, rfl⟩
      · exact .inl rfl
      · rw [State.appendByte_eq]
        exact .inl rfl
      · rw [State.appendByte_eq]
        exact .inr (.inl ⟨⟨b, rfl⟩, hcomp, rfl, rfl⟩)
    | evOvf =>
      cases h
      exact .inr (.inr (.inl ⟨rfl, rfl, rfl⟩))
    | _ => cases hw

/-- `exec` of every operation changes the flags only in their rows. -/
theorem exec_flag_rows {i : Instr} {s t : State} (h : exec i s = .next t) :
    (t.frameReady ≠ s.frameReady → FrameReadyRow i s t) ∧ (t.error ≠ s.error → ErrorRow i s t) := by
  rcases exec_flags h with hf | ⟨hi, hcomp, hses, hf⟩ | ⟨hi, hses, hf⟩ | ⟨hi, hf⟩ | ⟨hi, h6, hf⟩ <;>
    obtain ⟨hready, herror⟩ := Prod.mk.inj hf
  · exact ⟨absurd hready, absurd herror⟩
  · obtain ⟨hrec, hcur⟩ := State.receiving_of_completes hcomp
    exact ⟨fun _ => .inl ⟨hready, hi, hrec, hcur, hses⟩, absurd herror⟩
  · exact ⟨absurd hready, fun _ => .inl ⟨herror, hi, hses⟩⟩
  · exact ⟨fun _ => .inr ⟨hready, .inl hi⟩, absurd herror⟩
  · exact ⟨fun _ => .inr ⟨hready, .inr ⟨hi, h6⟩⟩, fun _ => .inr ⟨herror, hi, h6⟩⟩

/-- Settles O53: `exec_flag_rows`, from the state in which the step runs its operation, where the rows' items are those of
`s`. -/
theorem flagsChangeOnlyWhereTheRulesSay : Obligations.FlagsChangeOnlyWhereTheRulesSay := by
  refine ⟨fun i s t h => exec_flag_rows h, fun s t h => ?_⟩
  rcases step_by_nextOp h with ⟨hrst, rfl⟩ | ⟨i, u, hop, hex, hu⟩ | ht
  · exact ⟨fun _ => .inl ⟨hrst, rfl⟩, fun _ => .inl ⟨hrst, rfl⟩⟩
  · obtain ⟨hready, herror⟩ := exec_flag_rows hex
    rw [hu] at hready herror
    exact ⟨fun hne => .inr ⟨i, hop, hready hne⟩, fun hne => .inr ⟨i, hop, herror hne⟩⟩
  · have hready := congrArg State.frameReady ht
    have herror := congrArg State.error ht
    exact ⟨absurd hready, absurd herror⟩

end Sys2Proof.Machine
end

section
/-! The canonical form of a sparse store determines its contents (spec/20_memory.md R46, R48). -/

namespace Sys2Proof.Machine

variable {α : Type}

theorem Sparse.get?_cons_same (k : Nat) (v : α) (m : List (Nat × α)) : Sparse.get? ((k, v) :: m) k = some v :=
  if_pos rfl

theorem Sparse.get?_cons_other {k a : Nat} (v : α) (m : List (Nat × α)) (h : k ≠ a) :
    Sparse.get? ((k, v) :: m) a = Sparse.get? m a :=
  if_neg h

theorem Sparse.wf_tail {hi lo k : Nat} {v : α} {m : List (Nat × α)} (h : Sparse.wf hi lo ((k, v) :: m) = true) :
    Sparse.wf hi (k + 1) m = true := by
  rw [Sparse.wf, Bool.and_eq_true] at h
  exact h.2

/-- The first key of a canonical store is its least. -/
theorem Sparse.head_le_of_get?_eq_some {hi lo k a : Nat} {w v : α} {m : List (Nat × α)}
    (hm : Sparse.wf hi lo ((k, w) :: m) = true) (h : Sparse.get? ((k, w) :: m) a = some v) : k ≤ a := by
  by_contra hlt
  have hnone : Sparse.get? m a = none := Sparse.get?_below hi m (k + 1) a (Sparse.wf_tail hm) (by omega)
  rw [Sparse.get?_cons_other w m (by omega), hnone] at h
  cases h

/-- Each first key is listed in the other store, so the first keys are equal, and then so are their values. The tails hold
the same above the first key, and neither lists a key up to it. -/
theorem Sparse.eq_of_get?_eq {hi lo : Nat} {m n : List (Nat × α)} (hm : Sparse.wf hi lo m = true)
    (hn : Sparse.wf hi lo n = true) (h : ∀ a, Sparse.get? m a = Sparse.get? n a) : m = n := by
  induction m generalizing n lo with
  | nil =>
    cases n with
    | nil => rfl
    | cons d n => exact absurd ((Sparse.get?_cons_same d.1 d.2 n).symm.trans (h d.1).symm) (Option.some_ne_none d.2)
  | cons c m ih =>
    obtain ⟨k, v⟩ := c
    cases n with
    | nil => exact absurd ((Sparse.get?_cons_same k v m).symm.trans (h k)) (Option.some_ne_none v)
    | cons d n =>
      obtain ⟨l, w⟩ := d
      have hkl : k = l := Nat.le_antisymm
        (Sparse.head_le_of_get?_eq_some hm ((h l).trans (Sparse.get?_cons_same l w n)))
        (Sparse.head_le_of_get?_eq_some hn ((h k).symm.trans (Sparse.get?_cons_same k v m)))
      subst hkl
      have hvw : some v = some w := by rw [← Sparse.get?_cons_same k v m, h, Sparse.get?_cons_same]
      have htails : ∀ a, Sparse.get? m a = Sparse.get? n a := fun a => by
        by_cases hak : a < k + 1
        · rw [Sparse.get?_below hi m _ a (Sparse.wf_tail hm) hak, Sparse.get?_below hi n _ a (Sparse.wf_tail hn) hak]
        · rw [← Sparse.get?_cons_other v m (by omega : k ≠ a), h, Sparse.get?_cons_other w n (by omega)]
      rw [Option.some.inj hvw, ih (Sparse.wf_tail hm) (Sparse.wf_tail hn) htails]

/-- Settles O15: the laws of a buffer write, and `Sparse.eq_of_get?_eq`. -/
theorem bufferReadsBackWhatWasWritten : Obligations.BufferReadsBackWhatWasWritten :=
  ⟨fun s i v => ⟨s.bufRead_bufWrite_same i v, fun _ hj => s.bufRead_bufWrite_other v hj, Memory.wf_bufWrite s i v⟩,
    fun _ _ => Sparse.eq_of_get?_eq⟩

/-- Settles O16: the laws of a table write, and `Sparse.eq_of_get?_eq`. -/
theorem tableReadsBackWhatWasWritten : Obligations.TableReadsBackWhatWasWritten :=
  ⟨fun s ch e => ⟨s.entry_setEntry_same ch e, fun _ hk => s.entry_setEntry_other e hk,
      Table.wf_setEntry s s.cfg.numChannels ch e⟩,
    fun _ _ _ => Sparse.eq_of_get?_eq⟩

end Sys2Proof.Machine
end

section
/-! The codes of the strobe and mode ports (spec/20_memory.md R52, R53), and the sample words. -/

namespace Sys2Proof.Machine

/-- R52: a strobe presents its code. -/
theorem State.strobeBits_strobe (s : State) (k : Strobe) : (s.strobe k).out.strobeBits = k.code := rfl

/-- R52: without a strobe the port shows 0. -/
theorem State.strobeBits_quiet (s : State) : s.quiet.out.strobeBits = 0 := rfl

/-- R53: a mode read samples the mode whose code is on the port. -/
theorem Env.mode_of_bits (e : Env) (m : RMode) (rest : List (BitVec 2)) :
    Env.mode { e with modes := m.bits :: rest } = m :=
  RMode.ofBits_bits m

/-- Settles O3: the nine words are decoded; each port's codes are those of its encoding. -/
theorem sampleWordsDecode : Obligations.SampleWordsDecode :=
  ⟨by decide,
    fun s => ⟨s.strobeBits_quiet, s.strobeBits_strobe .idle, s.strobeBits_strobe .rx, s.strobeBits_strobe .cal⟩,
    fun e rest => ⟨e.mode_of_bits .idle rest, e.mode_of_bits .cal rest, e.mode_of_bits .rx rest,
      e.mode_of_bits .other rest⟩⟩

end Sys2Proof.Machine
end

section
/-! What the main context's turn selects (spec/20_memory.md R50, R66, 60_exceptions.md R147). -/

namespace Sys2Proof.Machine

theorem State.selectMain_of_busy {s : State} {i : Instr} (hb : s.mseq.busy = true)
    (hd : decodeCommand s.mseq.word = .ok i) : s.selectMain = .run i s := by
  rw [State.selectMain, if_pos hb, hd]

theorem State.selectMain_of_word {s : State} {w : BitVec 48} {rest : List (BitVec 48)} {i : Instr}
    (hb : s.mseq.busy = false) (hc : s.env.cmds = w :: rest) (hd : decodeCommand w = .ok i) :
    s.selectMain = .run i s.takeCommand := by
  simp [State.selectMain, hb, hc, hd]

/-- In the main context's turn the step runs the operation that the turn selects. -/
theorem step_of_selectMain {s t : State} {i : Instr} (hm : s.mainTurn = true) (h : s.onTurn.selectMain = .run i t) :
    step s = exec i t := by
  rw [step, State.select_of_mainTurn hm, h]

/-- Settles O4: `onTurn` leaves the sequencer and the command port as they are. -/
theorem stepRunsTheDecodedCommand : Obligations.StepRunsTheDecodedCommand :=
  ⟨fun s _ _ _ hm hb hc hd => step_of_selectMain hm (State.selectMain_of_word (s := s.onTurn) hb hc hd),
    fun s _ hm hb hd => step_of_selectMain hm (State.selectMain_of_busy (s := s.onTurn) hb hd)⟩

end Sys2Proof.Machine
end

section
/-! Decoding against encoding, for every word and every operation (spec/30_encoding.md R67 to R72). -/

namespace Sys2Proof

/-- The opcode or kind selects the arm of the decoder, the must-be-zero fields are 0, and the other fields give the operands
back. -/
theorem decode_encode (i : Instr) : decode (encode i) = .ok i := by
  cases i <;> simp [encode, decode, decodeCommand, decodeEvent, ifZero]

theorem kind_cases (k : BitVec 2) : k = 0 ∨ k = 1 ∨ k = 2 ∨ k = 3 := by
  revert k
  decide

/-- R72, R75: what the event port decodes, by the kind of the word. -/
theorem decodeEvent_cases (w : BitVec 10) :
    (evKind w = 0 ∧ decodeEvent w = .error .noEvent) ∨ (evKind w = 1 ∧ decodeEvent w = .ok .evSfd) ∨
    (evKind w = 2 ∧ decodeEvent w = .ok (.evByte (evData w))) ∨ (evKind w = 3 ∧ decodeEvent w = .ok .evOvf) := by
  rcases kind_cases (evKind w) with h | h | h | h <;> simp [decodeEvent, h]

/-- R68, R72: the data field of an event word counts for a byte event only. -/
theorem encode_of_decodeEvent {w : BitVec 10} {i : Instr} (h : decodeEvent w = .ok i) :
    ∃ d, encode i = .event (evWord (evKind w) d) ∧ ((∃ b, i = .evByte b) → d = evData w) := by
  rcases decodeEvent_cases w with ⟨hk, hd⟩ | ⟨hk, hd⟩ | ⟨hk, hd⟩ | ⟨hk, hd⟩ <;> rw [h] at hd <;> cases hd <;> rw [hk]
  · exact ⟨0, rfl, fun ⟨_, hb⟩ => Instr.noConfusion hb⟩
  · exact ⟨evData w, rfl, fun _ => rfl⟩
  · exact ⟨0, rfl, fun ⟨_, hb⟩ => Instr.noConfusion hb⟩

/-- Settles O1: `decode_encode` and its converses on the two ports. -/
theorem decodeAndEncodeAreInverse : Obligations.DecodeAndEncodeAreInverse :=
  ⟨decode_encode, fun _ _ => encode_of_decodeCommand, fun _ _ => encode_of_decodeEvent⟩

end Sys2Proof
end

section
/-! Decoding against the rows of the opcode table (spec/30_encoding.md R71 to R73, R76): a word that a row selects
decodes, and the word of an operation selects its own row only (`Laws.OwnRow`). -/

namespace Sys2Proof

theorem ownRow (i : Instr) : Laws.OwnRow.Statement i := by
  cases i with
  | tune hz => exact Laws.OwnRow.tune hz
  | cal ch hz => exact Laws.OwnRow.cal ch hz
  | tunech ch => exact Laws.OwnRow.tunech ch
  | sweep => exact Laws.OwnRow.sweep
  | clrrdy => exact Laws.OwnRow.clrrdy
  | rdbuf k => exact Laws.OwnRow.rdbuf k
  | rdstat => exact Laws.OwnRow.rdstat
  | rdsyn => exact Laws.OwnRow.rdsyn
  | rdchf ch => exact Laws.OwnRow.rdchf ch
  | rdchs ch => exact Laws.OwnRow.rdchs ch
  | rdchc ch => exact Laws.OwnRow.rdchc ch
  | rdchr ch => exact Laws.OwnRow.rdchr ch
  | crcclr => exact Laws.OwnRow.crcclr
  | crcupd b => exact Laws.OwnRow.crcupd b
  | crcrd => exact Laws.OwnRow.crcrd
  | evSfd => exact Laws.OwnRow.evSfd
  | evByte b => exact Laws.OwnRow.evByte b
  | evOvf => exact Laws.OwnRow.evOvf

theorem row_of_encode_command {i : Instr} {w : BitVec 48} (h : encode i = .command w) :
    ∃ r ∈ commandRows, r.mnemonic = i.mnemonic ∧ ∀ r' ∈ commandRows, (r'.selects w = true ↔ r' = r) := by
  simpa only [Laws.OwnRow.Statement, h] using ownRow i

theorem row_of_encode_event {i : Instr} {w : BitVec 10} (h : encode i = .event w) :
    ∃ r ∈ eventRows, r.mnemonic = i.mnemonic ∧ ∀ r' ∈ eventRows, (r'.selects w = true ↔ r' = r) := by
  simpa only [Laws.OwnRow.Statement, h] using ownRow i

/-! ### A mask of ones keeps its field -/

theorem byte_and_mask (b : Byte) : b &&& 255#8 = b := BitVec.and_allOnes

theorem word32_and_mask (a : Word32) : a &&& 4294967295#32 = a := BitVec.and_allOnes

theorem kind_and_mask (k : BitVec 2) : k &&& 3#2 = k := BitVec.and_allOnes

/-! ### The rows and the decoder -/

/-- R71: a row fixes the opcode, and the must-be-zero fields that the decoder checks under it. -/
theorem decodes_of_selects {r : CommandRow} {w : BitVec 48} (hr : r ∈ commandRows) (h : r.selects w = true) :
    ∃ i, decodeCommand w = .ok i := by
  rw [← cmdWord_fields w, CommandRow.selects_iff] at h
  simp only [commandRows, List.mem_cons, List.not_mem_nil, or_false] at hr
  unfold decodeCommand
  generalize cmdOp w = op at *
  generalize cmdIdx w = idx at *
  generalize cmdArg w = arg at *
  rcases hr with rfl | rfl | rfl | rfl | rfl | rfl | rfl | rfl | rfl | rfl | rfl | rfl | rfl | rfl | rfl <;>
    simp [cmdOp, cmdIdx, cmdArg, byte_and_mask, word32_and_mask, argHigh_eq_zero_iff] at h <;>
    simp [ifZero, h]

theorem selects_eq_false_of_decodeCommand_error {w : BitVec 48} {e : DecodeError} (h : decodeCommand w = .error e)
    {r : CommandRow} (hr : r ∈ commandRows) : r.selects w = false := by
  by_contra hne
  obtain ⟨i, hi⟩ := decodes_of_selects hr (by simpa using hne)
  rw [h] at hi
  cases hi

/-- R72: a row of the event port looks at the kind only. -/
theorem EventRow.selects_iff_kind {r : EventRow} {w : BitVec 10} (hr : r ∈ eventRows) :
    r.selects w = true ↔ evKind w = evKind r.pattern := by
  rw [← evWord_fields w, EventRow.selects_iff, evKind_evWord]
  generalize evKind w = k
  generalize evData w = d
  simp only [eventRows, List.mem_cons, List.not_mem_nil, or_false] at hr
  rcases hr with rfl | rfl | rfl <;> simp [evKind, evData, kind_and_mask]

/-- R75: no row has the kind of the idle pattern. -/
theorem evKind_pattern_ne_zero {r : EventRow} (hr : r ∈ eventRows) : evKind r.pattern ≠ 0 := by
  revert r
  decide

theorem selects_eq_false_of_decodeEvent_error {w : BitVec 10} {e : DecodeError} (h : decodeEvent w = .error e)
    {r : EventRow} (hr : r ∈ eventRows) : r.selects w = false := by
  have hk : evKind w = 0 := by
    rcases decodeEvent_cases w with ⟨hk, -⟩ | ⟨-, hd⟩ | ⟨-, hd⟩ | ⟨-, hd⟩
    · exact hk
    all_goals
      rw [h] at hd
      cases hd
  rw [← Bool.not_eq_true, EventRow.selects_iff_kind hr, hk]
  exact (evKind_pattern_ne_zero hr).symm

/-- The row of an event word that decodes is that of its operation's word, which has the same kind. -/
theorem row_of_decodeEvent {w : BitVec 10} {i : Instr} (h : decodeEvent w = .ok i) :
    ∃ r ∈ eventRows, r.mnemonic = i.mnemonic ∧ ∀ r' ∈ eventRows, (r'.selects w = true ↔ r' = r) := by
  obtain ⟨d, hd, -⟩ := encode_of_decodeEvent h
  obtain ⟨r, hr, hmn, huniq⟩ := row_of_encode_event hd
  refine ⟨r, hr, hmn, fun r' hr' => ?_⟩
  rw [← huniq r' hr', EventRow.selects_iff_kind hr', EventRow.selects_iff_kind hr', evKind_evWord]

/-- Settles O2: the row of a word that decodes is that of its operation's word; a word that a row selects decodes. -/
theorem decoderFollowsTheOpcodeTable : Obligations.DecoderFollowsTheOpcodeTable := by
  refine ⟨fun w => ?_, fun w => ?_⟩
  · cases h : decodeCommand w with
    | ok i => exact row_of_encode_command (encode_of_decodeCommand h)
    | error e => exact fun r hr => selects_eq_false_of_decodeCommand_error h hr
  · cases h : decodeEvent w with
    | ok i => exact row_of_decodeEvent h
    | error e => exact fun r hr => selects_eq_false_of_decodeEvent_error h hr

end Sys2Proof

namespace Sys2Proof.Machine

theorem State.selectMain_of_reserved {s : State} {w : BitVec 48} {rest : List (BitVec 48)} {e : DecodeError}
    (hb : s.mseq.busy = false) (hc : s.env.cmds = w :: rest) (hd : decodeCommand w = .error e) :
    s.selectMain = .refuse .reserved := by
  simp [State.selectMain, hb, hc, hd]

/-- Settles O7: a word that decodes has a row, so this one does not decode, and the main context refuses it. -/
theorem reservedWordsAreRefused : Obligations.ReservedWordsAreRefused := by
  intro s w rest hm hb hc hnone
  cases hd : decodeCommand w with
  | ok i =>
    obtain ⟨r, hr, -, huniq⟩ := row_of_encode_command (encode_of_decodeCommand hd)
    have hsel : r.selects w = true := (huniq r hr).2 rfl
    rw [hnone r hr] at hsel
    cases hsel
  | error e => rw [step, State.select_of_mainTurn hm, State.selectMain_of_reserved (s := s.onTurn) hb hc hd]

end Sys2Proof.Machine
end

section
/-! The operand checks of a ready block (spec/30_encoding.md R74). -/

namespace Sys2Proof

/-- The check that `exec` makes on the operands of an operation it accepts; `exec_command_check` ties it to `exec`. -/
def Instr.operandCheck (c : Config) : Instr → Option Machine.Refusal
  | .tune hz => Machine.checkHz c hz
  | .cal ch hz => Machine.checkCal c ch hz
  | .tunech ch => Machine.checkCh c ch
  | .rdbuf i => Machine.checkIndex i
  | .rdchf ch => Machine.checkCh c ch
  | .rdchs ch => Machine.checkCh c ch
  | .rdchc ch => Machine.checkCh c ch
  | .rdchr ch => Machine.checkCh c ch
  | _ => none

end Sys2Proof

namespace Sys2Proof.Machine

/-! ### What each check says -/

theorem checkHz_eq_none_iff {c : Config} {hz : Word32} : checkHz c hz = none ↔ freqWord c hz.toNat < 2 ^ 24 := by
  simp [checkHz, freqOverflows]

theorem checkHz_of_overflow {c : Config} {hz : Word32} (h : 2 ^ 24 ≤ freqWord c hz.toNat) :
    checkHz c hz = some .overflow :=
  if_pos (decide_eq_true h)

theorem checkCh_eq_none_iff {c : Config} {ch : Byte} : checkCh c ch = none ↔ ch.toNat < c.numChannels := by
  simp [checkCh]

theorem checkCh_of_ge {c : Config} {ch : Byte} (h : c.numChannels ≤ ch.toNat) : checkCh c ch = some .channel :=
  if_neg (Nat.not_lt.2 h)

theorem checkIndex_eq_none_iff {i : Byte} : checkIndex i = none ↔ i.toNat < frameLen := by
  simp [checkIndex]

theorem checkIndex_of_ge {i : Byte} (h : frameLen ≤ i.toNat) : checkIndex i = some .index :=
  if_neg (Nat.not_lt.2 h)

/-- R94: the channel is checked first. -/
theorem checkCal_of_ge {c : Config} {ch : Byte} (hz : Word32) (h : c.numChannels ≤ ch.toNat) :
    checkCal c ch hz = some .channel := by
  rw [checkCal, checkCh_of_ge h]

theorem checkCal_of_lt {c : Config} {ch : Byte} (hz : Word32) (h : ch.toNat < c.numChannels) :
    checkCal c ch hz = checkHz c hz := by
  rw [checkCal, checkCh_eq_none_iff.2 h]

theorem checkCal_eq_none_iff {c : Config} {ch : Byte} {hz : Word32} :
    checkCal c ch hz = none ↔ ch.toNat < c.numChannels ∧ freqWord c hz.toNat < 2 ^ 24 := by
  by_cases h : ch.toNat < c.numChannels
  · rw [checkCal_of_lt hz h, checkHz_eq_none_iff, and_iff_right h]
  · rw [checkCal_of_ge hz (Nat.not_lt.1 h)]
    simp [h]

/-- The operands pass exactly where they are in range. -/
theorem operandCheck_eq_none_iff (c : Config) (i : Instr) : i.operandCheck c = none ↔ i.wellFormed c = true := by
  cases i <;> simp only [Instr.operandCheck, Instr.wellFormed, checkHz_eq_none_iff, checkCal_eq_none_iff,
    checkCh_eq_none_iff, checkIndex_eq_none_iff, Bool.and_eq_true, decide_eq_true_eq]

/-! ### What a ready block answers -/

/-- `exec_command` with the check named. -/
theorem exec_command_check {i : Instr} {w : BitVec 48} (hi : encode i = .command w) (s : State) :
    exec i s = s.runMicro w (i.operandCheck s.cfg) (i.firstMicro s.cfg) i.micro := by
  cases i <;> cases hi <;> rfl

theorem operandCheck_of_event {i : Instr} {w : BitVec 10} (hi : encode i = .event w) (c : Config) :
    i.operandCheck c = none := by
  cases i <;> cases hi <;> rfl

/-- A handler always answers (60_exceptions.md R148). -/
theorem exec_event_next {i : Instr} {w : BitVec 10} (hi : encode i = .event w) (s : State) :
    ∃ t, exec i s = .next t := by
  cases i with
  | evSfd => exact ⟨_, rfl⟩
  | evByte b =>
    change ∃ t, execEvByte b s = .next t
    unfold execEvByte
    split <;> exact ⟨_, rfl⟩
  | evOvf => exact ⟨_, rfl⟩
  | _ => cases hi

theorem exec_ready_refused {i : Instr} {s : State} {r : Refusal} (hb : s.mseq.busy = false)
    (h : i.operandCheck s.cfg = some r) : exec i s = .refused r := by
  cases hw : encode i with
  | command w => rw [exec_command_check hw, State.runMicro_refused hb h]
  | event w =>
    rw [operandCheck_of_event hw] at h
    cases h

theorem exec_ready_next {i : Instr} {s : State} (hb : s.mseq.busy = false) (h : i.operandCheck s.cfg = none) :
    ∃ t, exec i s = .next t := by
  cases hw : encode i with
  | command w => exact ⟨_, (exec_command_check hw s).trans (State.runMicro_ready hb h)⟩
  | event w => exact exec_event_next hw s

/-- Settles O21: a ready block refuses what the operand check refuses, and goes on with the rest. -/
theorem readyBlockRunsExactlyTheAdmitted : Obligations.ReadyBlockRunsExactlyTheAdmitted := by
  intro i s hb
  rw [← operandCheck_eq_none_iff]
  cases h : i.operandCheck s.cfg with
  | none => exact iff_of_true (exec_ready_next hb h) rfl
  | some r => simp [exec_ready_refused hb h]

/-- Settles O20: `exec_ready_refused`, with what the check of each operation says. -/
theorem operandsOutOfRangeAreRefused : Obligations.OperandsOutOfRangeAreRefused := by
  refine fun s hb => ⟨fun i hi => exec_ready_refused hb (checkIndex_of_ge hi),
    fun hz hover => exec_ready_refused hb (checkHz_of_overflow hover), fun ch hch => ?_, fun ch hz hch hover => ?_⟩
  · have hrefused : ∀ i : Instr, i.operandCheck s.cfg = checkCh s.cfg ch → exec i s = .refused .channel :=
      fun i hi => exec_ready_refused hb (hi.trans (checkCh_of_ge hch))
    exact ⟨fun hz => exec_ready_refused hb (checkCal_of_ge hz hch), hrefused _ rfl, hrefused _ rfl, hrefused _ rfl,
      hrefused _ rfl, hrefused _ rfl⟩
  · exact exec_ready_refused hb ((checkCal_of_lt hz hch).trans (checkHz_of_overflow hover))

end Sys2Proof.Machine
end

section
/-! Rounding to nearest (spec/40_synth.md R81, R82). -/

namespace Sys2Proof.Machine

theorem freqWord_eq (c : Config) (hz : Nat) :
    freqWord c hz = (2 * hz * 65536 + c.referenceHz) / (2 * c.referenceHz) := rfl

/-- R82: a number is the word exactly where the word is below its successor and not below it. -/
theorem freqWord_eq_iff {c : Config} (hc : 0 < c.referenceHz) (hz w : Nat) :
    freqWord c hz = w ↔
      2 * c.referenceHz * w ≤ 2 * (hz * 65536) + c.referenceHz ∧
      2 * (hz * 65536) + c.referenceHz < 2 * c.referenceHz * (w + 1) := by
  have hlow := freqWord_lt_iff hc hz w
  have hhigh := freqWord_lt_iff hc hz (w + 1)
  rw [Nat.mul_comm _ (2 * c.referenceHz), Nat.mul_assoc 2 hz] at hlow hhigh
  omega

/-- Settles O17: `freqWord_eq_iff`, and R81's examples by its formula. -/
theorem freqWordRoundsToNearestTieUp : Obligations.FreqWordRoundsToNearestTieUp :=
  ⟨fun c hz w hc => ⟨freqWord_eq c hz, freqWord_eq_iff hc hz w⟩,
    fun c h => by simp [freqWord_eq, h], fun c h => by simp [freqWord_eq, h]⟩

end Sys2Proof.Machine
end

section
/-! How long the wait of the interrupt context polls (spec/40_synth.md R85), in terms of the answers it reads. -/

namespace Sys2Proof.Machine

/-- There is at least one poll and at most `limit + 1`. -/
theorem Env.modesIsr_length (m : RMode) (limit : Nat) (e : Env) :
    1 ≤ (e.modesIsr m limit).length ∧ (e.modesIsr m limit).length ≤ limit + 1 := by
  induction limit generalizing e with
  | zero => simp [Env.modesIsr]
  | succ n ih =>
    have hrest := (ih e.afterMode).2
    by_cases hm : e.mode = m <;> simp [Env.modesIsr, hm, hrest]

/-- A wait that stops before its limit has read the wanted mode. -/
theorem Env.modesIsr_last (m : RMode) (limit : Nat) (e : Env) (h : (e.modesIsr m limit).length ≤ limit) :
    (e.modesIsr m limit).getLast? = some m := by
  induction limit generalizing e with
  | zero => simp [Env.modesIsr] at h
  | succ n ih =>
    by_cases hm : e.mode = m
    · simp [Env.modesIsr, hm]
    · have hrest : (e.afterMode.modesIsr m n).length ≤ n := by simpa [Env.modesIsr, hm] using h
      simp [Env.modesIsr, hm, List.getLast?_cons, ih e.afterMode hrest]

/-- Settles O46: the number of polls is the number of answers. -/
theorem interruptWaitPollsAtMostItsLimitAndOne : Obligations.InterruptWaitPollsAtMostItsLimitAndOne := by
  intro m limit e
  obtain ⟨hpos, hmax⟩ := e.modesIsr_length m limit
  refine ⟨(e.modesIsr m limit).length, hpos, hmax, e.pollIsr_eq m limit, fun j hj => ?_, fun hk => ?_⟩
  · rw [← e.modesIsr_get m limit j (by omega)]
    exact e.modesIsr_before_last m limit j hj
  · rw [← e.modesIsr_get m limit _ (by omega)]
    have hlast := e.modesIsr_last m limit hk
    rwa [List.getLast?_eq_getElem?, List.getElem?_eq_getElem (by omega), Option.some.injEq] at hlast

end Sys2Proof.Machine
end

section
/-! One micro-step of `TUNE` at a time, and `RDSYN` (spec/40_synth.md R84 to R91). -/

namespace Sys2Proof.Machine

theorem wellFormed_tune_iff {c : Config} {hz : Word32} :
    (Instr.tune hz).wellFormed c = true ↔ freqWord c hz.toNat < 2 ^ 24 := decide_eq_true_iff

/-- R50, R87 T1: a ready block accepts an admitted frequency and strobes idle. -/
theorem exec_tune_ready {s : State} {hz : Word32} (hb : s.mseq.busy = false)
    (hwf : (Instr.tune hz).wellFormed s.cfg = true) :
    exec (.tune hz) s = .next { s with
      session := .idle
      out := { s.out with strobe := some .idle }
      mseq := ⟨true, 0x01, .t2Poll, hz, 0, 0, 0⟩ } := by
  rw [exec_tune, State.runMicro_ready hb (checkHz_eq_none_iff.2 (wellFormed_tune_iff.1 hwf)), tuneMicro_t1 rfl,
    State.accept, cmdOp_cmdWord, cmdArg_cmdWord, cmdIdx_cmdWord]
  rfl

theorem exec_tune_going {s : State} {hz : Word32} {m : Micro} (h : s.standsAt (cmdWord 0x01 0 hz) m = true) :
    s.mseq.step = m ∧ exec (.tune hz) s = .next (tuneMicro hz s) := by
  obtain ⟨hb, hw, hm⟩ := (s.standsAt_iff _ _).1 h
  exact ⟨hm, (exec_tune s hz).trans (State.runMicro_going hb hw)⟩

/-- A poll that ends its wait, or a poll that does not. -/
theorem State.waitPoll_eq (s : State) (m : RMode) (limit : Nat) (tick : Micro) (done : State → State) :
    s.waitPoll m limit tick done =
      if s.env.mode = m ∨ s.mseq.n = limit then done { s with env := s.env.afterMode }
      else { s with env := s.env.afterMode, mseq := { s.mseq with step := tick } } := rfl

/-- Stated of any word `v`, as `State.synWrite_goto_response` is. -/
theorem State.synWrite_goto_eq (s : State) (v : Word24) (m : Micro) :
    (s.synWrite v).goto m = { s with
      syn2 := v.extractLsb' 16 8, syn1 := v.extractLsb' 8 8, syn0 := v.extractLsb' 0 8
      mseq := { s.mseq with step := m, n := 0 } } := rfl

/-- What a synthesizer write of every word leaves, that of R81's quotient leaves. -/
theorem State.synWrite_goto_unchanged {α : Type} (f : State → α) {s : State} {m : Micro}
    (h : ∀ v : Word24, f ((s.synWrite v).goto m) = f s) (v : Word24) : f ((s.synWrite v).goto m) = f s := h v

/-- Settles O22: `exec_tune_ready`, and then the micro-steps one by one. -/
theorem tuneFirstMicroSteps : Obligations.TuneFirstMicroSteps := by
  refine fun hz s => ⟨fun hb hlt => exec_tune_ready hb (wellFormed_tune_iff.2 hlt), ?_, ?_, ?_, ?_⟩ <;> intro h <;>
    obtain ⟨hm, hex⟩ := exec_tune_going h <;> rw [hex]
  · rw [tuneMicro_t2Poll hm, State.waitPoll_eq]
    split <;> rfl
  · rw [tuneMicro_t2Tick hm]
    rfl
  · rw [tuneMicro_t3 hm]
    rfl
  · rw [tuneMicro_t4 hm]
    exact congrArg _ (s.synWrite_goto_eq _ _)

/-- Settles O23: the micro-steps one by one; of the two clauses of T7 the poll's own condition chooses. -/
theorem tuneLastMicroSteps : Obligations.TuneLastMicroSteps := by
  refine fun hz s => ⟨?_, ?_, ?_, ?_, ?_, ?_⟩ <;> intro h <;> obtain ⟨hm, hex⟩ := exec_tune_going h <;> rw [hex]
  · rw [tuneMicro_t5 hm]
    rfl
  · rw [tuneMicro_t6 hm]
    rfl
  · intro hover
    rw [tuneMicro_t7Poll hm, State.waitPoll_eq, if_pos hover]
    rfl
  · intro hmode hlimit
    rw [tuneMicro_t7Poll hm, State.waitPoll_eq, if_neg (not_or.2 ⟨hmode, hlimit⟩)]
  · rw [tuneMicro_t7Tick hm]
    rfl
  · rw [tuneMicro_t8 hm]
    rfl

/-- R50, R66: a command of one micro-step answers a ready block at once. -/
theorem State.finish_accept (s : State) (w : BitVec 48) (v : Word32) :
    (s.accept w .only).finish v = s.responded w v := rfl

/-- Settles O28: the zero-extended synthesizer word is a zero byte above its three bytes. -/
theorem rdsynAnswersTheSynthesizerWord : Obligations.RdsynAnswersTheSynthesizerWord := by
  intro s hb
  have hsyn : s.syn.setWidth 32 = ((0 : BitVec 8) ++ s.syn2 ++ s.syn1 ++ s.syn0) :=
    setWidth_threeBytes s.syn2 s.syn1 s.syn0
  rw [← hsyn, exec_rdsyn, State.runMicro_ready hb rfl]
  exact congrArg _ (s.finish_accept _ _)

end Sys2Proof.Machine
end

section
/-! What a command leaves of a reception (spec/60_exceptions.md R154, 42_frame.md R115): the buffer, the cursor and
`pend_data` stay, and no command leads to `RECEIVING`. -/

namespace Sys2Proof.Machine

/-- The items of the reception that only the handlers and the radio write. -/
def State.frameStore (s : State) : Memory × BitVec 4 × Option Byte := (s.buf, s.cursor, s.pendData)

/-- Between `s` and `t` the reception is as it was or abandoned. -/
def KeepsOrAbandons (s t : State) : Prop :=
  t.frameStore = s.frameStore ∧ (t.session = .receiving → s.session = .receiving)

theorem KeepsOrAbandons.refl (s : State) : KeepsOrAbandons s s := ⟨rfl, id⟩

/-- Stated of any word `v`, as `State.synWrite_goto_response` is. -/
theorem State.synWrite_goto_reception (s : State) (v : Word24) (m : Micro) :
    KeepsOrAbandons s ((s.synWrite v).goto m) := ⟨rfl, id⟩

/-- R90: `ConfirmRx()` leads from `CALIBRATING` to `LISTENING` and nowhere else. -/
theorem State.confirmRx_reception (s : State) (m : Micro) : KeepsOrAbandons s (s.confirmRx.goto m) := by
  refine ⟨rfl, fun h => ?_⟩
  change (if s.session = .calibrating then Session.listening else s.session) = .receiving at h
  split at h
  · cases h
  · exact h

theorem tuneMicro_reception (hz : Word32) (s : State) : KeepsOrAbandons s (tuneMicro hz s) := by
  unfold tuneMicro
  cases s.mseq.step
  case t1 => exact ⟨rfl, fun h => Session.noConfusion h⟩
  case t2Poll =>
    rcases s.waitPoll_cases .idle s.cfg.pollMaxIdle .t2Tick (fun t => t.goto .t3) with ⟨-, e⟩ | ⟨-, -, e⟩ <;>
      exact e ▸ ⟨rfl, id⟩
  case t4 => exact s.synWrite_goto_reception _ _
  case t5 => exact ⟨rfl, fun h => Session.noConfusion h⟩
  case t7Poll =>
    rcases s.waitPoll_cases .rx s.cfg.pollMaxRx .t7Tick (fun t => t.confirmRx.goto .t8) with ⟨-, e⟩ | ⟨-, -, e⟩
    · exact e ▸ State.confirmRx_reception { s with env := s.env.afterMode } .t8
    · exact e ▸ ⟨rfl, id⟩
  all_goals exact ⟨rfl, id⟩

theorem calMicro_reception (ch : Byte) (hz : Word32) (s : State) : KeepsOrAbandons s (calMicro ch hz s) := by
  unfold calMicro
  cases s.mseq.step
  case c1 => exact s.synWrite_goto_reception _ _
  case c2 => exact ⟨rfl, fun h => Session.noConfusion h⟩
  case c3 => exact ⟨rfl, fun h => Session.noConfusion h⟩
  case c4Second => exact s.confirmRx_reception _
  case c7 => exact ⟨rfl, fun h => Session.noConfusion h⟩
  all_goals exact ⟨rfl, id⟩

theorem tunechMicro_reception (ch : Byte) (s : State) : KeepsOrAbandons s (tunechMicro ch s) := by
  unfold tunechMicro
  cases s.mseq.step <;> exact ⟨rfl, id⟩

theorem sweepMicro_reception (s : State) : KeepsOrAbandons s (sweepMicro s) := by
  unfold sweepMicro
  cases s.mseq.step
  case s1 => exact ⟨rfl, fun h => Session.noConfusion h⟩
  case s2 =>
    dsimp only
    split
    · exact ⟨rfl, id⟩
    · exact s.confirmRx_reception _
  case s4 => exact ⟨rfl, fun h => Session.noConfusion h⟩
  all_goals exact ⟨rfl, id⟩

/-- R118: `CLRRDY` leads from `FRAME_READY` to `IDLE` and nowhere else. -/
theorem State.clearReady_reception (s : State) : KeepsOrAbandons s (s.clearReady.finish 0) := by
  refine ⟨rfl, fun h => ?_⟩
  change (if s.session = .frameReady then Session.idle else s.session) = .receiving at h
  split at h
  · cases h
  · exact h

theorem micro_reception (i : Instr) (s : State) : KeepsOrAbandons s (i.micro s) := by
  cases i with
  | tune hz => exact tuneMicro_reception hz s
  | cal ch hz => exact calMicro_reception ch hz s
  | tunech ch => exact tunechMicro_reception ch s
  | sweep => exact sweepMicro_reception s
  | clrrdy => exact s.clearReady_reception
  | _ => exact ⟨rfl, id⟩

theorem exec_command_reception {i : Instr} {w : BitVec 48} {s t : State} (hi : encode i = .command w)
    (h : exec i s = .next t) : KeepsOrAbandons s t := by
  rcases exec_command_next hi h with ⟨-, rfl⟩ | ⟨-, -, rfl⟩ | ⟨-, -, rfl⟩
  · exact micro_reception i (s.accept w (i.firstMicro s.cfg))
  · exact micro_reception i s
  · exact .refl _

/-! ### Outside `RECEIVING` -/

theorem State.storesByte_of_not_receiving {s : State} (h : s.session ≠ .receiving) : s.storesByte = false := by
  simp [State.storesByte, h]

/-- R114: outside a reception the byte handler does nothing. -/
theorem exec_evByte_of_not_receiving {s : State} (b : Byte) (h : s.session ≠ .receiving) :
    exec (.evByte b) s = .next { s with inIsr := false } :=
  if_neg (ne_true_of_eq_false (State.storesByte_of_not_receiving h))

/-- R114, R115: outside a reception no operation writes the buffer, and the frame-start alone leads to `RECEIVING`. -/
theorem exec_of_not_receiving {i : Instr} {s t : State} (hrec : s.session ≠ .receiving) (h : exec i s = .next t) :
    t.buf = s.buf ∧ (t.session = .receiving → i = .evSfd) := by
  cases hw : encode i with
  | command w =>
    obtain ⟨hstore, hses⟩ := exec_command_reception hw h
    exact ⟨congrArg Prod.fst hstore, fun ht => absurd (hses ht) hrec⟩
  | event w =>
    cases i with
    | evSfd =>
      cases h
      exact ⟨rfl, fun _ => rfl⟩
    | evByte b =>
      rw [exec_evByte_of_not_receiving b hrec] at h
      cases h
      exact ⟨rfl, fun ht => absurd ht hrec⟩
    | evOvf =>
      cases h
      exact ⟨rfl, fun ht => Session.noConfusion ht⟩
    | _ => cases hw

/-- Settles O27: T1 leaves `IDLE`, in which a byte is dropped, as in the other two sessions; and a step from outside a
reception is `exec_of_not_receiving`, or touches neither the buffer nor the session. -/
theorem retuneDropsTheRestOfTheFrame : Obligations.RetuneDropsTheRestOfTheFrame := by
  refine ⟨fun s hz b hb hwf => ?_, fun s b hses => ?_, fun s t hrec hr h => ?_⟩
  · exact ⟨_, exec_tune_ready hb hwf, rfl, rfl, rfl, exec_evByte_of_not_receiving b (fun h => Session.noConfusion h)⟩
  · exact exec_evByte_of_not_receiving b (by rcases hses with h | h | h <;> rw [h] <;> decide)
  · rcases step_by_nextOp h with ⟨hrst, -⟩ | ⟨i, u, hop, hex, hu⟩ | ht
    · exact absurd hrst hr
    · have hrec' : u.session ≠ .receiving := by rwa [hu]
      obtain ⟨hbuf, hses⟩ := exec_of_not_receiving hrec' hex
      exact ⟨hbuf.trans (by rw [hu]), fun ht => by rw [hop, hses ht]⟩
    · have hbuf := congrArg State.buf ht
      have hses := congrArg State.session ht
      exact ⟨hbuf, fun hrec' => absurd (hses.symm.trans hrec') hrec⟩

end Sys2Proof.Machine
end

section
/-! The interleaving along a run (spec/20_memory.md R64, 60_exceptions.md R147): each step uses up one turn, and no operation
touches the turns still to come. -/

namespace Sys2Proof.Machine

/-- The turns still to come. -/
def State.turns (s : State) : List Turn := s.env.turns

theorem micro_turns (i : Instr) (s : State) : (i.micro s).turns = s.turns := by
  cases i with
  | tune hz =>
    change (tuneMicro hz s).turns = s.turns
    unfold tuneMicro
    cases s.mseq.step
    case t2Poll => exact State.waitPoll_unchanged _ rfl rfl fun _ => rfl
    case t4 => exact State.synWrite_goto_unchanged _ (fun _ => rfl) _
    case t7Poll => exact State.waitPoll_unchanged _ rfl rfl fun _ => rfl
    all_goals rfl
  | cal ch hz =>
    change (calMicro ch hz s).turns = s.turns
    unfold calMicro
    cases s.mseq.step
    case c1 => exact State.synWrite_goto_unchanged _ (fun _ => rfl) _
    all_goals rfl
  | tunech ch =>
    change (tunechMicro ch s).turns = s.turns
    unfold tunechMicro
    cases s.mseq.step <;> rfl
  | sweep =>
    change (sweepMicro s).turns = s.turns
    unfold sweepMicro
    cases s.mseq.step
    case s2 =>
      dsimp only
      split <;> rfl
    all_goals rfl
  | _ => rfl

theorem State.rxRead_turns (s : State) : s.rxRead.turns = s.turns := by
  rw [State.rxRead_eq]
  by_cases hp : s.pendData = none <;> simp [State.turns, hp, Env.afterRx]

theorem Env.pollIsr_turns (m : RMode) (limit : Nat) (e : Env) : (e.pollIsr m limit).turns = e.turns := by
  rw [Env.pollIsr_frame]

theorem exec_turns {i : Instr} {s t : State} (h : exec i s = .next t) : t.turns = s.turns := by
  cases hw : encode i with
  | command w =>
    rcases exec_command_next hw h with ⟨-, rfl⟩ | ⟨-, -, rfl⟩ | ⟨-, -, rfl⟩
    · exact micro_turns i _
    · exact micro_turns i s
    · rfl
  | event w =>
    cases i with
    | evSfd =>
      cases h
      rfl
    | evByte b =>
      rcases exec_evByte_cases h with ⟨-, rfl⟩ | ⟨-, -, rfl⟩ | ⟨-, -, rfl⟩
      · rfl
      · rw [State.appendByte_eq]
        exact s.rxRead_turns
      · rw [State.complete_eq, State.appendByte_eq]
        exact (Env.pollIsr_turns _ _ _).trans s.rxRead_turns
    | evOvf =>
      cases h
      exact Env.pollIsr_turns _ _ _
    | _ => cases hw

theorem step_turns {s t : State} (h : step s = .next t) : t.turns = s.turns.tail := by
  rcases step_cases h with ⟨w, rest, -, rfl⟩ | ⟨rest, -, rfl⟩ | ⟨-, rfl⟩ | ⟨-, -, i, u, htake, hex⟩ |
    ⟨-, -, i, -, hex⟩ | ⟨-, -, -, rfl⟩ | ⟨-, -, -, rfl⟩ | ⟨-, -, w, rest, i, -, -, hex⟩
  · unfold State.arrive
    split <;> rfl
  · rfl
  · rfl
  · rw [exec_turns hex]
    rcases State.takeEvent_cases htake with ⟨-, -, rfl⟩ | ⟨-, -, -, rfl⟩ | ⟨-, -, -, -, rfl⟩ <;> rfl
  · exact exec_turns hex
  · rfl
  · rfl
  · exact exec_turns hex

/-- A run begins with a step. -/
theorem run_succ_iff {M : Host.Core} {k : Nat} {s t : M.State} :
    M.run (k + 1) s = .next t ↔ ∃ u, M.step s = .next u ∧ M.run k u = .next t := by
  rw [Host.Core.run]
  cases M.step s <;> simp

/-- A run ends with a step. -/
theorem run_succ_last {M : Host.Core} {k : Nat} {s t : M.State} (h : M.run (k + 1) s = .next t) :
    ∃ u, M.run k s = .next u ∧ M.step u = .next t := by
  induction k generalizing s with
  | zero =>
    obtain ⟨u, hs, hu⟩ := run_succ_iff.1 h
    cases hu
    exact ⟨s, rfl, hs⟩
  | succ k ih =>
    obtain ⟨v, hs, hv⟩ := run_succ_iff.1 h
    obtain ⟨u, hu, ht⟩ := ih hv
    exact ⟨u, run_succ_iff.2 ⟨v, hs, hu⟩, ht⟩

end Sys2Proof.Machine
end

section
/-! `TUNE` under every interleaving (spec/40_synth.md R92): accepted in the main context's turn, it holds the sequencer until
it answers its frequency. -/

namespace Sys2Proof.Machine

theorem encode_injective {i j : Instr} (h : encode i = encode j) : i = j :=
  Except.ok.inj ((decode_encode i).symm.trans ((congrArg decode h).trans (decode_encode j)))

theorem decodeCommand_tune (hz : Word32) : decodeCommand (cmdWord 0x01 0 hz) = .ok (.tune hz) :=
  decode_encode (.tune hz)

/-- Only the last micro-step of `TUNE` makes the block ready again. -/
theorem tuneMicro_busy_or_finish (hz : Word32) (s : State) :
    (tuneMicro hz s).mseq.busy = s.mseq.busy ∨ tuneMicro hz s = s.finish hz := by
  unfold tuneMicro
  cases s.mseq.step
  case t2Poll => exact .inl (State.waitPoll_unchanged (fun u => u.mseq.busy) rfl rfl fun _ => rfl)
  case t4 => exact .inl (State.synWrite_goto_unchanged (fun u => u.mseq.busy) (fun _ => rfl) _)
  case t7Poll => exact .inl (State.waitPoll_unchanged (fun u => u.mseq.busy) rfl rfl fun _ => rfl)
  case t8 => exact .inr rfl
  all_goals exact .inl rfl

/-- A `TUNE hz` is in progress, and no reset is to come. -/
structure HoldsTune (hz : Word32) (s : State) : Prop where
  busy : s.mseq.busy = true
  word : s.mseq.word = cmdWord 0x01 0 hz
  noReset : .rst ∉ s.turns

section
variable {hz : Word32} {s t : State}

theorem HoldsTune.head?_ne_rst (h : HoldsTune hz s) : s.env.turns.head? ≠ some .rst :=
  fun hr => h.noReset (List.mem_of_head? hr)

/-- The step that ends the command in progress is its own last micro-step, which answers the frequency. -/
theorem HoldsTune.rsp_of_ready (h : HoldsTune hz s) (hs : step s = .next t) (ht : t.mseq.busy = false) : t.rsp = hz := by
  have hkept : t.mseq ≠ s.mseq := fun e => by simp [e, h.busy] at ht
  rcases step_by_nextOp hs with ⟨hr, -⟩ | ⟨i, u, -, hex, hu⟩ | hwait
  · exact absurd hr h.head?_ne_rst
  · have hmseq : u.mseq = s.mseq := by rw [hu]
    cases hw : encode i with
    | command w =>
      rcases exec_command_next hw hex with ⟨hb, -⟩ | ⟨hb, hword, rfl⟩ | ⟨-, -, rfl⟩
      · rw [hmseq, h.busy] at hb
        cases hb
      · obtain rfl : i = .tune hz := encode_injective (by rw [hw, ← hword, hmseq, h.word]; rfl)
        rcases tuneMicro_busy_or_finish hz u with hbusy | hfinish
        · exact absurd (ht.symm.trans (hbusy.trans hb)) Bool.false_ne_true
        · exact congrArg State.rsp hfinish
      · exact absurd hmseq hkept
    | event w =>
      have hi : i.isEvent = true := by cases i <;> cases hw <;> rfl
      exact absurd ((exec_event_frame hi hex).1.trans hmseq) hkept
  · have hmseq := congrArg State.mseq hwait
    exact absurd hmseq hkept

/-- Every other step leaves it in progress. -/
theorem HoldsTune.of_step (h : HoldsTune hz s) (hs : step s = .next t) (ht : t.mseq.busy = true) : HoldsTune hz t where
  busy := ht
  word := by
    obtain ⟨hgoing, -, -⟩ := responseComesOnlyWithTheLastMicroStep s t h.head?_ne_rst hs
    exact (hgoing h.busy).1.trans h.word
  noReset hmem := h.noReset (List.mem_of_mem_tail (step_turns hs ▸ hmem))

/-- R50: the main context's turn takes an admitted `TUNE` off the port and takes its first micro-step. -/
theorem step_accepts_tune (hm : s.mainTurn = true) (hb : s.mseq.busy = false)
    (hc : s.env.cmds.head? = some (cmdWord 0x01 0 hz)) (hwf : (Instr.tune hz).wellFormed s.cfg = true) :
    step s = .next { s.onTurn.takeCommand with
      session := .idle
      out := { Outputs.quiet with strobe := some .idle }
      mseq := ⟨true, 0x01, .t2Poll, hz, 0, 0, 0⟩ } := by
  obtain ⟨hstep, -⟩ := stepRunsTheDecodedCommand
  rw [hstep s _ _ _ hm hb (List.cons_head?_tail hc).symm (decodeCommand_tune hz)]
  exact exec_tune_ready hb hwf

theorem HoldsTune.of_accept (hm : s.mainTurn = true) (hb : s.mseq.busy = false)
    (hc : s.env.cmds.head? = some (cmdWord 0x01 0 hz)) (hwf : (Instr.tune hz).wellFormed s.cfg = true)
    (hnr : .rst ∉ s.turns) : ∃ u, step s = .next u ∧ HoldsTune hz u := by
  have hs := step_accepts_tune hm hb hc hwf
  exact ⟨_, hs, rfl, rfl, fun hmem => hnr (List.mem_of_mem_tail (step_turns hs ▸ hmem))⟩

end

/-- While the block stays busy it stays busy with the `TUNE` it held at first. -/
theorem HoldsTune.run {hz : Word32} {s u : State} {k : Nat} (hs : HoldsTune hz s)
    (hbusy : ∀ j, j ≤ k → ∃ v, core.run j s = .next v ∧ v.mseq.busy = true) (hu : core.run k s = .next u) :
    HoldsTune hz u := by
  induction k generalizing u with
  | zero =>
    cases hu
    exact hs
  | succ k ih =>
    obtain ⟨v, hv, hstep⟩ := run_succ_last hu
    obtain ⟨u', hu', hb⟩ := hbusy (k + 1) (Nat.le_refl _)
    obtain rfl : u = u' := Host.Outcome.next.inj (hu.symm.trans hu')
    exact (ih (fun j hj => hbusy j (Nat.le_succ_of_le hj)) hv).of_step hstep hb

/-- Settles O25: the acceptance, `HoldsTune.run` from there, and the step that ends the command, which is not the
acceptance itself. -/
theorem tuneAnswersItsFrequency : Obligations.TuneAnswersItsFrequency := by
  intro s hz hm hb hc hwf hnr
  obtain ⟨u, hs, hu⟩ := HoldsTune.of_accept hm hb hc hwf hnr
  have hrest : ∀ {j v}, core.run (j + 1) s = .next v → core.run j u = .next v := fun hv => by
    obtain ⟨u', hs', hv'⟩ := run_succ_iff.1 hv
    obtain rfl : u = u' := Host.Outcome.next.inj (hs.symm.trans hs')
    exact hv'
  refine ⟨⟨u, hs, hu.busy, hu.word⟩, fun k t hbusy ht hready => ?_⟩
  cases k with
  | zero =>
    obtain rfl : u = t := Host.Outcome.next.inj (hrest ht)
    exact absurd (hu.busy.symm.trans hready) Bool.noConfusion
  | succ k =>
    obtain ⟨v, hv, hlast⟩ := run_succ_last (hrest ht)
    refine (hu.run (fun j hj => ?_) hv).rsp_of_ready hlast hready
    obtain ⟨x, hx, hxb⟩ := hbusy (j + 1) (Nat.le_add_left 1 j) (Nat.succ_le_succ hj)
    exact ⟨x, hrest hx, hxb⟩

end Sys2Proof.Machine
end

section
/-! A command run to its end with no event arriving (spec/60_exceptions.md R164, R165). -/

namespace Sys2Proof.Machine

/-- No handler runs, no event is pending, and nothing more is to come. -/
def State.undisturbed (s : State) : Bool :=
  !s.inIsr && s.noPending && s.env.turns.isEmpty && s.env.cmds.isEmpty

theorem State.atRest_eq (s : State) : s.atRest = (!s.mseq.busy && s.undisturbed) := by
  simp only [State.atRest, State.undisturbed, Bool.and_assoc]

theorem State.undisturbed_iff (s : State) :
    s.undisturbed = true ↔ s.inIsr = false ∧ s.noPending = true ∧ s.env.turns = [] ∧ s.env.cmds = [] := by
  simp [State.undisturbed, and_assoc]

theorem State.mainTurn_of_no_turns {s : State} (hi : s.inIsr = false) (hp : s.noPending = true)
    (ht : s.env.turns = []) : s.mainTurn = true := by
  simp [State.mainTurn, State.blockTurn, hi, hp, ht]

theorem State.undisturbed_onTurn {s : State} (h : s.undisturbed = true) : s.onTurn.undisturbed = true := by
  rw [State.undisturbed_iff] at h ⊢
  obtain ⟨hi, hp, ht, hc⟩ := h
  exact ⟨hi, hp, congrArg List.tail ht, hc⟩

theorem settle_succ {s t : State} (fuel : Nat) (hr : s.atRest = false) (h : step s = .next t) :
    settle (fuel + 1) s = settle fuel t := by
  simp [settle, hr, h]

theorem settle_atRest {s : State} (fuel : Nat) (h : s.atRest = true) : settle fuel s = .next s := by
  cases fuel with
  | zero => rfl
  | succ fuel => exact if_pos h

/-- The induction over a run: while `P` holds, each step either leaves `P` with a lower rank or is the last one, after which
`Q` holds, at rest. -/
theorem settle_of_rank {P Q : State → Prop} {rank : State → Nat} (hbusy : ∀ u, P u → u.atRest = false)
    (hrest : ∀ u, Q u → u.atRest = true)
    (hstep : ∀ u, P u → ∃ t, step u = .next t ∧ (P t ∧ rank t < rank u ∨ Q t ∧ 0 < rank u))
    {s : State} (hs : P s) (fuel : Nat) (hfuel : rank s ≤ fuel) : ∃ t, settle fuel s = .next t ∧ Q t := by
  induction fuel generalizing s with
  | zero =>
    obtain ⟨t, -, ⟨-, hrank⟩ | ⟨-, hrank⟩⟩ := hstep s hs <;> omega
  | succ fuel ih =>
    obtain ⟨t, ht, hend⟩ := hstep s hs
    rw [settle_succ fuel (hbusy s hs) ht]
    rcases hend with ⟨hP, hrank⟩ | ⟨hQ, -⟩
    · exact ih hP (by omega)
    · exact ⟨t, settle_atRest fuel (hrest t hQ), hQ⟩

end Sys2Proof.Machine
end

section
/-! `TUNE` run to its end with no event arriving (spec/40_synth.md R87, R89, 60_exceptions.md R164): at each micro-step, what
it has written so far, whatever the radio answered. -/

namespace Sys2Proof.Machine

/-- The items that no micro-step of `TUNE` writes. -/
def State.untuned (s : State) :
    BitVec 4 × Memory × Table × Word16 × Option Byte × List Byte × List Byte × List Word24 × Config :=
  (s.cursor, s.buf, s.tab, s.crc, s.pendData, s.env.rssis, s.env.foes, s.env.cals, s.cfg)

/-- What `TUNE hz` has written when it stands at its next micro-step: T4 the synthesizer word, T5 the session, T6 the flags, T7
the session again. -/
def TuneWritten (hz : Word32) (s : State) : Prop :=
  match s.mseq.step with
  | .t5 => s.syn = synWord s.cfg hz
  | .t6 => s.syn = synWord s.cfg hz ∧ s.session = .calibrating
  | .t7Poll => s.syn = synWord s.cfg hz ∧ s.session = .calibrating ∧ s.flags = (false, false)
  | .t7Tick => s.syn = synWord s.cfg hz ∧ s.session = .calibrating ∧ s.flags = (false, false)
  | .t8 => s.syn = synWord s.cfg hz ∧ s.session = .listening ∧ s.flags = (false, false)
  | _ => True

/-- `TUNE hz` stands at one of its micro-steps, with its counter in range, and has written what comes before. -/
structure TuneStage (hz : Word32) (s : State) : Prop where
  fits : s.mseq.fitsTune s.cfg = true
  written : TuneWritten hz s

/-- How `TUNE hz` ends where no event has interfered (R89). -/
structure TuneEnded (hz : Word32) (s : State) : Prop where
  ready : s.mseq.busy = false
  rsp : s.rsp = hz
  rspValid : s.out.rspValid = true
  syn : s.syn = synWord s.cfg hz
  session : s.session = .listening
  flags : s.flags = (false, false)

section
variable {hz : Word32} {s : State}

theorem tuneMicro_untuned : (tuneMicro hz s).untuned = s.untuned := by
  unfold tuneMicro
  cases s.mseq.step
  case t2Poll => exact State.waitPoll_unchanged _ rfl rfl fun _ => rfl
  case t4 => exact State.synWrite_goto_unchanged _ (fun _ => rfl) _
  case t7Poll => exact State.waitPoll_unchanged _ rfl rfl fun _ => rfl
  all_goals rfl

theorem tuneMicro_undisturbed (hp : s.noPending = true) : (tuneMicro hz s).undisturbed = s.undisturbed := by
  unfold tuneMicro
  cases s.mseq.step
  case t2Poll => exact State.waitPoll_unchanged _ rfl rfl fun _ => rfl
  case t3 =>
    simp only [State.undisturbed, hp]
    rfl
  case t4 => exact State.synWrite_goto_unchanged _ (fun _ => rfl) _
  case t7Poll => exact State.waitPoll_unchanged _ rfl rfl fun _ => rfl
  all_goals rfl

/-- T4, stated of any word `v`, as `State.synWrite_goto_response` is. -/
theorem TuneStage.of_synWrite (hm : s.mseq.step = .t4) {v : Word24} (hv : v = synWord s.cfg hz) :
    ((s.synWrite v).goto .t5).mseq.busy = s.mseq.busy ∧ TuneStage hz ((s.synWrite v).goto .t5) ∧
      ((s.synWrite v).goto .t5).microsLeft < s.microsLeft :=
  ⟨rfl, ⟨rfl, (s.syn_synWrite v).trans hv⟩, by simp [State.microsLeft, hm]⟩

/-- Each micro-step goes on to the next stage and has fewer to take, or is the last one; a poll goes on to its tick only below
its limit. -/
theorem TuneStage.next (h : TuneStage hz s) :
    ((tuneMicro hz s).mseq.busy = s.mseq.busy ∧ TuneStage hz (tuneMicro hz s) ∧
      (tuneMicro hz s).microsLeft < s.microsLeft) ∨
    (TuneEnded hz (tuneMicro hz s) ∧ 0 < s.microsLeft) := by
  obtain ⟨hfits, hw⟩ := h
  rcases Mseq.fits_tune (hz := hz) hfits with ⟨hm, hn⟩ | ⟨hm, hn⟩ | hm | hm | hm | hm | ⟨hm, hn⟩ | ⟨hm, hn⟩ | hm <;>
    simp only [TuneWritten, hm] at hw
  · rw [tuneMicro_t2Poll hm]
    rcases s.waitPoll_cases .idle s.cfg.pollMaxIdle .t2Tick (fun t => t.goto .t3) with ⟨-, e⟩ | ⟨-, hlimit, e⟩ <;> rw [e]
    · exact .inl ⟨rfl, ⟨rfl, trivial⟩, by simp [State.microsLeft, hm]⟩
    · have hlt : s.mseq.n < s.cfg.pollMaxIdle := by omega
      exact .inl ⟨rfl, ⟨decide_eq_true hlt, trivial⟩, by simp [State.microsLeft, hm]⟩
  · rw [tuneMicro_t2Tick hm]
    exact .inl ⟨rfl, ⟨decide_eq_true hn, trivial⟩, by
      simp only [State.microsLeft, hm, State.tickTo_mseq, State.tickTo_cfg]
      omega⟩
  · rw [tuneMicro_t3 hm]
    exact .inl ⟨rfl, ⟨rfl, trivial⟩, by simp [State.microsLeft, hm]⟩
  · rw [tuneMicro_t4 hm]
    exact .inl (TuneStage.of_synWrite hm rfl)
  · rw [tuneMicro_t5 hm]
    exact .inl ⟨rfl, ⟨rfl, And.intro hw rfl⟩, by simp [State.microsLeft, hm]⟩
  · obtain ⟨hsyn, hses⟩ := hw
    rw [tuneMicro_t6 hm]
    exact .inl ⟨rfl, ⟨decide_eq_true (Nat.zero_le s.cfg.pollMaxRx), And.intro hsyn (And.intro hses rfl)⟩, by
      simp only [State.microsLeft, hm, State.goto_mseq, State.goto_cfg, State.clearFlags_cfg]
      omega⟩
  · obtain ⟨hsyn, hses, hflags⟩ := hw
    rw [tuneMicro_t7Poll hm]
    rcases s.waitPoll_cases .rx s.cfg.pollMaxRx .t7Tick (fun t => t.confirmRx.goto .t8) with ⟨-, e⟩ | ⟨-, hlimit, e⟩ <;>
      rw [e]
    · exact .inl ⟨rfl, ⟨rfl, And.intro hsyn (And.intro (if_pos hses) hflags)⟩, by simp [State.microsLeft, hm]⟩
    · have hlt : s.mseq.n < s.cfg.pollMaxRx := by omega
      exact .inl ⟨rfl, ⟨decide_eq_true hlt, And.intro hsyn (And.intro hses hflags)⟩, by simp [State.microsLeft, hm]⟩
  · rw [tuneMicro_t7Tick hm]
    exact .inl ⟨rfl, ⟨decide_eq_true hn, hw⟩, by
      simp only [State.microsLeft, hm, State.tickTo_mseq, State.tickTo_cfg]
      omega⟩
  · obtain ⟨hsyn, hses, hflags⟩ := hw
    rw [tuneMicro_t8 hm]
    exact .inr ⟨⟨rfl, rfl, rfl, hsyn, hses, hflags⟩, by simp [State.microsLeft, hm]⟩

end

/-- A `TUNE hz` that began in `s` is in progress, and nothing disturbs it. -/
structure TuneRuns (s : State) (hz : Word32) (u : State) : Prop where
  held : HoldsTune hz u
  undisturbed : u.undisturbed = true
  untuned : u.untuned = s.untuned
  stage : TuneStage hz u

/-- A `TUNE hz` that began in `s` has ended, and nothing has disturbed it. -/
structure TuneRan (s : State) (hz : Word32) (u : State) : Prop where
  undisturbed : u.undisturbed = true
  untuned : u.untuned = s.untuned
  ended : TuneEnded hz u

section
variable {s u : State} {hz : Word32}

theorem TuneRuns.atRest (h : TuneRuns s hz u) : u.atRest = false := by
  simp [State.atRest_eq, h.held.busy]

theorem TuneRan.atRest (h : TuneRan s hz u) : u.atRest = true := by
  simp [State.atRest_eq, h.ended.ready, h.undisturbed]

theorem TuneRuns.step_tune (h : TuneRuns s hz u) : step u = .next (tuneMicro hz u.onTurn) := by
  obtain ⟨hi, hp, ht, -⟩ := u.undisturbed_iff.1 h.undisturbed
  obtain ⟨-, hstep⟩ := stepRunsTheDecodedCommand
  rw [hstep u _ (State.mainTurn_of_no_turns hi hp ht) h.held.busy (h.held.word ▸ decodeCommand_tune hz), exec_tune]
  exact State.runMicro_going h.held.busy h.held.word

/-- The turn of the main context takes the next micro-step. -/
theorem TuneRuns.next (h : TuneRuns s hz u) :
    ∃ t, step u = .next t ∧ (TuneRuns s hz t ∧ t.microsLeft < u.microsLeft ∨ TuneRan s hz t ∧ 0 < u.microsLeft) := by
  obtain ⟨-, hp, -, -⟩ := u.undisturbed_iff.1 h.undisturbed
  have hund : (tuneMicro hz u.onTurn).undisturbed = true :=
    (tuneMicro_undisturbed (s := u.onTurn) hp).trans (State.undisturbed_onTurn h.undisturbed)
  have hkept : (tuneMicro hz u.onTurn).untuned = s.untuned := tuneMicro_untuned.trans h.untuned
  have hstage : TuneStage hz u.onTurn := ⟨h.stage.fits, h.stage.written⟩
  refine ⟨_, h.step_tune, ?_⟩
  rcases hstage.next with ⟨hb, hnext, hrank⟩ | ⟨hend, hrank⟩
  · exact .inl ⟨⟨h.held.of_step h.step_tune (hb.trans h.held.busy), hund, hkept, hnext⟩, hrank⟩
  · exact .inr ⟨⟨hund, hkept, hend⟩, hrank⟩

/-- R50, R87 T1: offered to a block at rest, an admitted `TUNE` runs from its second micro-step on. -/
theorem TuneRuns.of_offer (hr : s.atRest = true) (hwf : (Instr.tune hz).wellFormed s.cfg = true) :
    ∃ u, step (s.offer (encode (.tune hz))) = .next u ∧ TuneRuns s hz u ∧
      u.microsLeft = 7 + 2 * s.cfg.pollMaxIdle + 2 * s.cfg.pollMaxRx := by
  rw [State.atRest_eq, Bool.and_eq_true, Bool.not_eq_true', State.undisturbed_iff] at hr
  obtain ⟨hb, hi, hp, ht, hc⟩ := hr
  have hcmds : (s.offer (encode (.tune hz))).env.cmds = [cmdWord 0x01 0 hz] := congrArg (· ++ [cmdWord 0x01 0 hz]) hc
  have hs := step_accepts_tune (s := s.offer (encode (.tune hz))) (State.mainTurn_of_no_turns hi hp ht) hb
    (congrArg List.head? hcmds) hwf
  obtain ⟨u, hu, hheld⟩ : ∃ u, step (s.offer (encode (.tune hz))) = .next u ∧ HoldsTune hz u :=
    HoldsTune.of_accept (State.mainTurn_of_no_turns hi hp ht) hb (congrArg List.head? hcmds) hwf
      (by simp [State.turns, State.offer, encode, ht])
  obtain rfl := Host.Outcome.next.inj (hs.symm.trans hu)
  refine ⟨_, hs, ⟨hheld, ?_, rfl, ⟨rfl, trivial⟩⟩, ?_⟩
  · rw [State.undisturbed_iff]
    exact ⟨hi, hp, congrArg List.tail ht, congrArg List.tail hcmds⟩
  · change 2 * (s.cfg.pollMaxIdle - 0) + 7 + 2 * s.cfg.pollMaxRx = _
    omega

end

/-- Settles O24: the first step leaves one micro-step fewer than the bound, and `settle_of_rank` runs the rest. -/
theorem tuneEndsListening : Obligations.TuneEndsListening := by
  intro s hz hr hwf
  obtain ⟨u, hs, hu, hleft⟩ := TuneRuns.of_offer hr hwf
  have hbusy : (s.offer (encode (.tune hz))).atRest = false := by simp [State.atRest, State.offer, encode]
  obtain ⟨t, ht, hran⟩ := settle_of_rank (fun _ h => TuneRuns.atRest h) (fun _ h => TuneRan.atRest h)
    (fun _ h => TuneRuns.next h) hu _ (Nat.le_of_eq hleft)
  have hrest := hran.atRest
  obtain ⟨-, hkept, hend⟩ := hran
  simp only [State.untuned, Prod.mk.injEq] at hkept
  obtain ⟨hcursor, hbuf, htab, hcrc, hpend, hrssis, hfoes, hcals, hcfg⟩ := hkept
  obtain ⟨hready, herror⟩ := Prod.mk.inj hend.flags
  have hsyn : t.syn.toNat = freqWord s.cfg hz.toNat := by
    rw [hend.syn, hcfg]
    exact BitVec.toNat_ofNat _ _ ▸ Nat.mod_eq_of_lt (wellFormed_tune_iff.1 hwf)
  refine ⟨t, ?_, hrest, hsyn, hend.session, hready, herror, hend.rsp, hend.rspValid, hcursor, hbuf, htab, hcrc, hpend,
    hrssis, hfoes, hcals, hcfg⟩
  rw [show 8 + 2 * s.cfg.pollMaxIdle + 2 * s.cfg.pollMaxRx = 7 + 2 * s.cfg.pollMaxIdle + 2 * s.cfg.pollMaxRx + 1 by omega,
    settle_succ _ hbusy hs, ht]

end Sys2Proof.Machine
end

section
/-! One micro-step of a command at a time (spec/20_memory.md R50, R66): where a command stands, and its acceptance. -/

namespace Sys2Proof.Machine

theorem exec_going {i : Instr} {w : BitVec 48} {s : State} {m : Micro} (hi : encode i = .command w)
    (h : s.standsAt w m = true) : s.mseq.step = m ∧ exec i s = .next (i.micro s) := by
  obtain ⟨hb, hw, hm⟩ := (s.standsAt_iff w m).1 h
  exact ⟨hm, (exec_command_check hi s).trans (State.runMicro_going hb hw)⟩

theorem exec_accepted {i : Instr} {w : BitVec 48} {s : State} (hi : encode i = .command w) (hb : s.mseq.busy = false)
    (hwf : i.wellFormed s.cfg = true) : exec i s = .next (i.micro (s.accept w (i.firstMicro s.cfg))) :=
  (exec_command_check hi s).trans (State.runMicro_ready hb ((operandCheck_eq_none_iff s.cfg i).2 hwf))

theorem State.accept_cmdWord (s : State) (op idx : Byte) (arg : Word32) (m : Micro) :
    s.accept (cmdWord op idx arg) m = { s with mseq := ⟨true, op, m, arg, idx, 0, 0⟩ } := by
  rw [State.accept, cmdOp_cmdWord, cmdArg_cmdWord, cmdIdx_cmdWord]

theorem wellFormed_cal_iff {c : Config} {ch : Byte} {hz : Word32} :
    (Instr.cal ch hz).wellFormed c = true ↔ ch.toNat < c.numChannels ∧ freqWord c hz.toNat < 2 ^ 24 := by
  simp only [Instr.wellFormed, Bool.and_eq_true, decide_eq_true_eq]

end Sys2Proof.Machine
end

section
/-! What the samples of `CAL` and `SWEEP` leave in the table (spec/41_caltable.md R94, R98). -/

namespace Sys2Proof.Machine

/-- The entry `e` after C5 of `CAL`: the frequency, the synthesizer bytes of `s` and the calibration bytes `c`. -/
def Entry.snapshot (e : Entry) (s : State) (hz : Word32) (c : Word24) : Entry :=
  { e with
    freq := hz, syn2 := s.syn2, syn1 := s.syn1, syn0 := s.syn0
    cal3 := c.extractLsb' 16 8, cal2 := c.extractLsb' 8 8, cal1 := c.extractLsb' 0 8 }

/-- The entry `e` after S3 of `SWEEP` with the sample `r`. -/
def Entry.sampled (e : Entry) (r : Byte) : Entry := { e with current := normRssi r, max := maxU8 e.max (normRssi r) }

variable (s : State) (ch : Nat)

theorem State.entry_calSnapshot_same (hz : Word32) :
    (s.calSnapshot ch hz).entry ch = (s.entry ch).snapshot s hz s.env.cal :=
  s.entry_setEntry_same ch _

theorem State.entry_calSample_same :
    (s.calSample ch).entry ch = { s.entry ch with current := normRssi s.env.rssi, max := 0 } :=
  s.entry_setEntry_same ch _

theorem State.entry_sweepSample_same : (s.sweepSample ch).entry ch = (s.entry ch).sampled s.env.rssi :=
  s.entry_setEntry_same ch _

variable {ch} {k : Nat}

theorem State.entry_calSnapshot_other (hz : Word32) (h : k ≠ ch) : (s.calSnapshot ch hz).entry k = s.entry k :=
  s.entry_setEntry_other _ h

theorem State.entry_calSample_other (h : k ≠ ch) : (s.calSample ch).entry k = s.entry k :=
  s.entry_setEntry_other _ h

theorem State.entry_sweepSample_other (h : k ≠ ch) : (s.sweepSample ch).entry k = s.entry k :=
  s.entry_setEntry_other _ h

end Sys2Proof.Machine
end

section
/-! The commands of the calibration table one micro-step at a time (spec/41_caltable.md R93 to R103). -/

namespace Sys2Proof.Machine

/-- Settles O29: the acceptance with C1, and then the micro-steps one by one. -/
theorem calFirstMicroSteps : Obligations.CalFirstMicroSteps := by
  refine fun ch hz s => ⟨fun hb hch hlt => ?_, ?_, ?_, ?_, ?_⟩
  · rw [exec_cal, State.runMicro_ready hb (checkCal_eq_none_iff.2 ⟨hch, hlt⟩), calMicro_c1 rfl, State.accept_cmdWord]
    exact congrArg _ (State.synWrite_goto_eq _ _ _)
  all_goals
    intro h
    obtain ⟨hm, hex⟩ := exec_going (i := .cal ch hz) rfl h
    rw [hex]
  · exact congrArg _ (calMicro_c2 hm)
  · exact congrArg _ (calMicro_c3 hm)
  · exact congrArg _ (calMicro_c4First hm)
  · exact congrArg _ (calMicro_c4Second hm)

/-- Settles O30: the micro-steps one by one; the table of C5 and C6 by what the snapshot and the sample leave in it. -/
theorem calLastMicroSteps : Obligations.CalLastMicroSteps := by
  refine fun ch hz s => ⟨?_, ?_, ?_, ?_⟩ <;> intro h <;>
    obtain ⟨hm, hex⟩ := exec_going (i := .cal ch hz) rfl h <;> rw [hex]
  · exact ⟨_, congrArg _ (calMicro_c5 hm), rfl, s.entry_calSnapshot_same _ hz,
      fun _ hk => s.entry_calSnapshot_other hz hk⟩
  · exact ⟨_, congrArg _ (calMicro_c6 hm), rfl, s.entry_calSample_same _, fun _ hk => s.entry_calSample_other hk⟩
  · exact congrArg _ (calMicro_c7 hm)
  · exact congrArg _ (calMicro_c8 hm)

/-- R96, R98 S0: the stored bytes are written as they are. -/
theorem State.synWrite_entry_goto (s : State) (e : Entry) (m : Micro) :
    (s.synWrite e.syn).goto m = { s with
      syn2 := e.syn2, syn1 := e.syn1, syn0 := e.syn0, mseq := { s.mseq with step := m, n := 0 } } :=
  congrArg (State.goto · m) (s.synWrite_bytes e.syn2 e.syn1 e.syn0)

/-- Settles O32: the acceptance with U1, and then the micro-steps one by one. -/
theorem tunechMicroSteps : Obligations.TunechMicroSteps := by
  refine fun ch s => ⟨fun hb hch => ?_, ?_, ?_⟩
  · rw [exec_tunech, State.runMicro_ready hb (checkCh_eq_none_iff.2 hch), tunechMicro_u1 rfl, State.accept_cmdWord]
    exact congrArg _ (State.synWrite_entry_goto _ _ _)
  all_goals
    intro h
    obtain ⟨hm, hex⟩ := exec_going (i := .tunech ch) rfl h
    rw [hex]
  · exact congrArg _ (tunechMicro_u2 hm)
  · exact congrArg _ (tunechMicro_u3 hm)

theorem encode_sweep : encode .sweep = .command 0x040000000000 := rfl

/-- Settles O34: the acceptance with S0 of channel 0, and then the micro-steps one by one; of the two clauses of the dwell its
own count chooses. -/
theorem sweepMicroSteps : Obligations.SweepMicroSteps := by
  refine fun s => ⟨fun hb hch => ?_, ?_, ?_, ?_, ?_, ?_, ?_, ?_⟩
  · rw [exec_sweep, State.runMicro_ready hb rfl, sweepMicro_s0Syn (if_pos hch), State.accept_cmdWord]
    exact congrArg _ (State.synWrite_entry_goto _ _ _)
  all_goals
    intro h
    obtain ⟨hm, hex⟩ := exec_going encode_sweep h
    rw [hex]
  · exact congrArg _ ((sweepMicro_s0Syn hm).trans (State.synWrite_entry_goto _ _ _))
  · exact congrArg _ (sweepMicro_s0Cal hm)
  · exact congrArg _ (sweepMicro_s1 hm)
  · intro hn
    have hdwell := (sweepMicro_s2 hm).trans (if_pos hn)
    rw [State.tickTo, ← hm] at hdwell
    exact congrArg _ hdwell
  · intro hn
    exact congrArg _ ((sweepMicro_s2 hm).trans (if_neg (Nat.not_lt.2 hn.ge)))
  · exact congrArg _ (sweepMicro_s4 hm)
  · exact congrArg _ (sweepMicro_sEnd hm)

/-- Settles O35: S3 by what the sample leaves in the table, and `maxU8` as the larger number. -/
theorem sweepSamplesOneChannel : Obligations.SweepSamplesOneChannel := by
  intro s h
  obtain ⟨hm, hex⟩ := exec_going encode_sweep h
  have hsame : ((s.sweepSample s.mseq.chan).goto .s4).entry s.mseq.chan = (s.entry s.mseq.chan).sampled s.env.rssi :=
    s.entry_sweepSample_same _
  refine ⟨_, hex.trans (congrArg _ (sweepMicro_s3 hm)), rfl, ?_⟩
  rw [hsame]
  exact ⟨rfl, maxU8_toNat _ _, rfl, fun _ hk => s.entry_sweepSample_other hk⟩

/-- R50, R66: a read whose operands are in range answers a ready block at once. -/
theorem State.runMicro_finish {s : State} {w : BitVec 48} {check : Option Refusal} {f : State → Word32} {v : Word32}
    (hb : s.mseq.busy = false) (hc : check = none) (hv : f (s.accept w .only) = v) :
    s.runMicro w check .only (fun t => t.finish (f t)) = .next (s.responded w v) := by
  rw [State.runMicro_ready hb hc, hv, State.finish_accept]

theorem setWidth_twoBytes (a b : Byte) : (a ++ b).setWidth 32 = (0#16 ++ a ++ b : Word32) := by
  have happend : (a ++ b).setWidth 32 = (a.setWidth 24 ++ b : Word32) := BitVec.setWidth_append
  rw [happend, BitVec.setWidth_eq_append (show 8 ≤ 24 by decide)]
  rfl

/-- Settles O38: each read answers at once, and its zero-extended fields are zero bytes above them. -/
theorem tableReadsAnswerTheEntry : Obligations.TableReadsAnswerTheEntry := by
  intro s ch hb hch
  have hc := checkCh_eq_none_iff.2 hch
  exact ⟨(exec_rdchf s ch).trans (State.runMicro_finish hb hc rfl),
    (exec_rdchs s ch).trans (State.runMicro_finish hb hc (setWidth_threeBytes _ _ _)),
    (exec_rdchc s ch).trans (State.runMicro_finish hb hc (setWidth_threeBytes _ _ _)),
    (exec_rdchr s ch).trans (State.runMicro_finish hb hc (setWidth_twoBytes _ _))⟩

/-! ### Normalisation -/

/-- A byte is its sign bit above seven others, and the normalisation inverts it. -/
theorem normRssi_cons (sign : Bool) (x : BitVec 7) : normRssi (.cons sign x) = .cons (!sign) x := by
  have hmask : (0x80 : Byte) = .cons true 0 := rfl
  rw [normRssi, hmask, BitVec.cons_xor_cons, Bool.xor_true]
  exact congrArg _ BitVec.xor_zero

theorem normRssi_toNat (r : Byte) : ((normRssi r).toNat : Int) = r.toInt + 128 := by
  rw [← BitVec.cons_msb_setWidth r, normRssi_cons, BitVec.toInt_eq_msb_cond, BitVec.msb_cons,
    BitVec.toNat_cons', BitVec.toNat_cons']
  cases r.msb <;> simp <;> omega

/-- Settles O39: the order is that of the signed values plus 128. -/
theorem normalisationAddsOneHundredTwentyEight : Obligations.NormalisationAddsOneHundredTwentyEight := by
  refine ⟨fun r => ⟨rfl, normRssi_toNat r, ?_⟩, fun r q => ?_⟩
  · rw [normRssi, normRssi, BitVec.xor_assoc, BitVec.xor_self, BitVec.xor_zero]
  · have hr := normRssi_toNat r
    have hq := normRssi_toNat q
    omega

end Sys2Proof.Machine
end

section
/-! What each command does to the table (spec/41_caltable.md R95, R99): which entries it can write, and that only C6 of `CAL`
lowers a maximum. -/

namespace Sys2Proof.Machine

variable {s : State} {ch : Byte} {hz : Word32} {k : Nat}

theorem tuneMicro_entry : (tuneMicro hz s).entry k = s.entry k := by
  unfold tuneMicro
  cases s.mseq.step
  case t2Poll => exact State.waitPoll_unchanged (fun u => u.entry k) rfl rfl fun _ => rfl
  case t4 => exact State.synWrite_goto_unchanged (fun u => u.entry k) (fun _ => rfl) _
  case t7Poll => exact State.waitPoll_unchanged (fun u => u.entry k) rfl rfl fun _ => rfl
  all_goals rfl

theorem calMicro_entry_other (h : k ≠ ch.toNat) : (calMicro ch hz s).entry k = s.entry k := by
  unfold calMicro
  cases s.mseq.step
  case c1 => exact State.synWrite_goto_unchanged (fun u => u.entry k) (fun _ => rfl) _
  case c5 => exact s.entry_calSnapshot_other hz h
  case c6 => exact s.entry_calSample_other h
  all_goals rfl

theorem tunechMicro_entry : (tunechMicro ch s).entry k = s.entry k := by
  unfold tunechMicro
  cases s.mseq.step <;> rfl

/-- R94: but for C6, `CAL` leaves the maximum of its channel as it is. -/
theorem calMicro_max (h : s.mseq.step ≠ .c6) : ((calMicro ch hz s).entry ch.toNat).max = (s.entry ch.toNat).max := by
  unfold calMicro
  cases hm : s.mseq.step
  case c1 => exact State.synWrite_goto_unchanged (fun u => (u.entry ch.toNat).max) (fun _ => rfl) _
  case c5 => exact (congrArg Entry.max (s.entry_calSnapshot_same ch.toNat hz)).trans rfl
  case c6 => exact absurd hm h
  all_goals rfl

/-- R99 (b): the larger of the two is not below the maximum before. -/
theorem State.max_le_sweepSample (s : State) (ch k : Nat) :
    (s.entry k).max.toNat ≤ ((s.sweepSample ch).entry k).max.toNat := by
  by_cases h : k = ch
  · rw [h, s.entry_sweepSample_same, Entry.sampled, maxU8_toNat]
    exact Nat.le_max_left _ _
  · rw [s.entry_sweepSample_other h]

theorem sweepMicro_max_le : (s.entry k).max.toNat ≤ ((sweepMicro s).entry k).max.toNat := by
  unfold sweepMicro
  cases s.mseq.step
  case s2 =>
    dsimp only
    split <;> exact Nat.le_refl _
  case s3 => exact s.max_le_sweepSample s.mseq.chan k
  all_goals exact Nat.le_refl _

theorem micro_max_le {i : Instr} (h : ∀ ch hz, i = .cal ch hz → s.mseq.step = .c6 → ch.toNat ≠ k) :
    (s.entry k).max.toNat ≤ ((i.micro s).entry k).max.toNat := by
  cases i with
  | tune hz => exact Nat.le_of_eq (congrArg (fun e : Entry => e.max.toNat) tuneMicro_entry.symm)
  | cal ch hz =>
    by_cases hk : k = ch.toNat
    · rw [hk]
      exact Nat.le_of_eq (congrArg BitVec.toNat (calMicro_max fun hm => h ch hz rfl hm hk.symm).symm)
    · exact Nat.le_of_eq (congrArg (fun e : Entry => e.max.toNat) (calMicro_entry_other hk).symm)
  | tunech ch => exact Nat.le_of_eq (congrArg (fun e : Entry => e.max.toNat) tunechMicro_entry.symm)
  | sweep => exact sweepMicro_max_le
  | _ => exact Nat.le_refl _

/-- R148: no handler writes the table. -/
theorem exec_event_entry {i : Instr} {w : BitVec 10} {s t : State} (hi : encode i = .event w) (h : exec i s = .next t) :
    t.entry k = s.entry k := by
  cases i with
  | evSfd =>
    cases h
    rfl
  | evByte b =>
    rcases exec_evByte_cases h with ⟨-, rfl⟩ | ⟨-, -, rfl⟩ | ⟨-, -, rfl⟩
    · rfl
    · rw [State.appendByte_eq]
      rfl
    · rw [State.complete_eq, State.appendByte_eq]
      rfl
  | evOvf =>
    cases h
    rfl
  | _ => cases hi

/-- No operation lowers the maximum of channel `k` but `CAL` of that channel at C6. -/
theorem exec_max_le {i : Instr} {s t : State} (h : exec i s = .next t)
    (hc6 : ¬ (s.mseq.busy = true ∧ s.mseq.op = 0x02 ∧ s.mseq.step = .c6 ∧ s.mseq.ch.toNat = k)) :
    (s.entry k).max.toNat ≤ (t.entry k).max.toNat := by
  cases hw : encode i with
  | command w =>
    rcases exec_command_next hw h with ⟨-, rfl⟩ | ⟨hb, hword, rfl⟩ | ⟨-, -, rfl⟩
    · refine micro_max_le (s := s.accept w (i.firstMicro s.cfg)) fun ch hz hi hm => ?_
      subst hi
      cases hm
    · refine micro_max_le fun ch hz hi hm hk => hc6 ⟨hb, ?_⟩
      subst hi
      cases hw
      obtain ⟨hop, hch, -⟩ := cmdWord_inj.1 hword
      exact ⟨hop, hm, hch ▸ hk⟩
    · exact Nat.le_refl _
  | event w => rw [exec_event_entry hw h]

/-- Settles O37: `exec_max_le`, from the state in which the step runs its operation, which has the entries and the sequencer of
`s`. -/
theorem onlyCalLowersTheMaximum : Obligations.OnlyCalLowersTheMaximum := by
  intro s t ch h hr hc6
  rcases step_by_nextOp h with ⟨hrst, -⟩ | ⟨i, u, -, hex, hu⟩ | ht
  · exact absurd hrst hr
  · have hentry : u.entry ch = s.entry ch := by rw [hu]; rfl
    have hmseq : u.mseq = s.mseq := by rw [hu]
    rw [← hentry]
    exact exec_max_le hex (hmseq ▸ hc6)
  · rw [ht]
    exact Nat.le_refl _

end Sys2Proof.Machine
end

section
/-! A command run to its end with no event arriving, in an exact number of steps (spec/60_exceptions.md R164, R165). -/

namespace Sys2Proof.Machine

theorem calMicro_undisturbed (ch : Byte) (hz : Word32) (s : State) :
    (calMicro ch hz s).undisturbed = s.undisturbed := by
  unfold calMicro
  cases s.mseq.step
  case c1 => exact State.synWrite_goto_unchanged _ (fun _ => rfl) _
  all_goals rfl

theorem tunechMicro_undisturbed (ch : Byte) (s : State) : (tunechMicro ch s).undisturbed = s.undisturbed := by
  unfold tunechMicro
  cases s.mseq.step <;> rfl

theorem sweepMicro_undisturbed (s : State) : (sweepMicro s).undisturbed = s.undisturbed := by
  unfold sweepMicro
  cases s.mseq.step
  case s2 =>
    dsimp only
    split <;> rfl
  all_goals rfl

theorem micro_undisturbed (i : Instr) {s : State} (h : s.undisturbed = true) : (i.micro s).undisturbed = true := by
  cases i with
  | tune hz =>
    obtain ⟨-, hp, -, -⟩ := s.undisturbed_iff.1 h
    exact (tuneMicro_undisturbed hp).trans h
  | cal ch hz => exact (calMicro_undisturbed ch hz s).trans h
  | tunech ch => exact (tunechMicro_undisturbed ch s).trans h
  | sweep => exact (sweepMicro_undisturbed s).trans h
  | _ => exact h

theorem State.onTurn_of_undisturbed {s : State} (h : s.undisturbed = true) : s.onTurn = s.quiet := by
  obtain ⟨-, -, ht, -⟩ := s.undisturbed_iff.1 h
  have henv : { s.env with turns := s.env.turns.tail } = s.env := by rw [ht, List.tail_nil, ← ht]
  exact congrArg (fun e => { s.quiet with env := e }) henv

/-- Command `i` is in progress, and nothing disturbs it. -/
structure Underway (i : Instr) (u : State) : Prop where
  busy : u.mseq.busy = true
  word : encode i = .command u.mseq.word
  undisturbed : u.undisturbed = true

section
variable {i : Instr} {w : BitVec 48} {s u : State}

theorem decodeCommand_of_encode (hi : encode i = .command w) : decodeCommand w = .ok i :=
  (congrArg decode hi).symm.trans (decode_encode i)

/-- The turn of the main context takes the next micro-step. -/
theorem Underway.step_eq (h : Underway i u) : step u = .next (i.micro u.quiet) := by
  obtain ⟨hi, hp, ht, -⟩ := u.undisturbed_iff.1 h.undisturbed
  obtain ⟨-, hstep⟩ := stepRunsTheDecodedCommand
  rw [hstep u i (State.mainTurn_of_no_turns hi hp ht) h.busy (decodeCommand_of_encode h.word),
    State.onTurn_of_undisturbed h.undisturbed, exec_command_check h.word]
  exact State.runMicro_going h.busy rfl

theorem Underway.next (h : Underway i u) (hb : (i.micro u.quiet).mseq.busy = true) : Underway i (i.micro u.quiet) where
  busy := hb
  word := by
    obtain ⟨hword, -⟩ := micro_responds (s := u.quiet) h.busy rfl i
    exact h.word.trans (congrArg _ hword.symm)
  undisturbed := micro_undisturbed i h.undisturbed

/-- R50: offered to a block at rest, an admitted command is accepted and takes its first micro-step. -/
theorem step_offer (hi : encode i = .command w) (hr : s.atRest = true) (hwf : i.wellFormed s.cfg = true) :
    step (s.offer (encode i)) = .next (i.micro (s.quiet.accept w (i.firstMicro s.cfg))) := by
  rw [State.atRest_eq, Bool.and_eq_true, Bool.not_eq_true', State.undisturbed_iff] at hr
  obtain ⟨hb, hisr, hp, ht, hc⟩ := hr
  have hcmds : (s.offer (.command w)).env.cmds = [w] := congrArg (· ++ [w]) hc
  have hturn : (s.offer (.command w)).onTurn.takeCommand = s.quiet := by
    have henv : { s.env with turns := s.env.turns.tail, cmds := (s.env.cmds ++ [w]).tail } = s.env := by
      rw [ht, hc, List.tail_nil, List.nil_append, List.tail_cons, ← ht, ← hc]
    exact congrArg (fun e => { s.quiet with env := e }) henv
  obtain ⟨hstep, -⟩ := stepRunsTheDecodedCommand
  rw [hi, hstep (s.offer (.command w)) w [] i (State.mainTurn_of_no_turns hisr hp ht) hb hcmds
    (decodeCommand_of_encode hi), hturn]
  exact exec_accepted hi hb hwf

end

/-- From `u` the next micro-step of `i` leads to `P` with exactly one micro-step less to take, or it is the last one and leads
to `Q`. -/
def CountsDown (P Q : State → Prop) (i : Instr) (u : State) : Prop :=
  ((i.micro u.quiet).mseq.busy = true ∧ P (i.micro u.quiet) ∧ (i.micro u.quiet).microsLeft + 1 = u.microsLeft) ∨
  ((i.micro u.quiet).mseq.busy = false ∧ Q (i.micro u.quiet) ∧ u.microsLeft = 1)

section
variable {P Q : State → Prop} {i : Instr}

theorem State.microsLeft_pos (s : State) : 0 < s.microsLeft := by
  unfold State.microsLeft
  cases s.mseq.step <;> dsimp only <;> omega

/-- The induction over a run: a command with `k + 1` micro-steps left is busy for `k` steps and ends with the next. -/
theorem Underway.run (hnext : ∀ u, Underway i u → P u → CountsDown P Q i u) {u : State} {k : Nat} (h : Underway i u)
    (hP : P u) (hk : u.microsLeft = k + 1) :
    (∃ v, core.run k u = .next v ∧ v.mseq.busy = true) ∧
    ∃ t, core.run (k + 1) u = .next t ∧ t.atRest = true ∧ Q t := by
  induction k generalizing u with
  | zero =>
    rcases hnext u h hP with ⟨-, -, hleft⟩ | ⟨hb, hQ, -⟩
    · have hpos := (i.micro u.quiet).microsLeft_pos
      omega
    · have hrest : (i.micro u.quiet).atRest = true := by
        simp [State.atRest_eq, hb, micro_undisturbed i (s := u.quiet) h.undisturbed]
      exact ⟨⟨u, rfl, h.busy⟩, _, run_succ_iff.2 ⟨_, h.step_eq, rfl⟩, hrest, hQ⟩
  | succ k ih =>
    rcases hnext u h hP with ⟨hb, hPt, hleft⟩ | ⟨-, -, hleft⟩
    · obtain ⟨⟨v, hv, hvb⟩, t, ht, hend⟩ := ih (h.next hb) hPt (by omega)
      exact ⟨⟨v, run_succ_iff.2 ⟨_, h.step_eq, hv⟩, hvb⟩, t, run_succ_iff.2 ⟨_, h.step_eq, ht⟩, hend⟩
    · omega

/-- A command offered to a block at rest, which has `k` micro-steps left after its first: it is busy for `k` steps and ends
with the next. -/
theorem run_offer {w : BitVec 48} {s u : State} {k : Nat} (hi : encode i = .command w) (hr : s.atRest = true)
    (hwf : i.wellFormed s.cfg = true) (hu : i.micro (s.quiet.accept w (i.firstMicro s.cfg)) = u)
    (hb : u.mseq.busy = true) (hP : P u) (hk : u.microsLeft = k) (hnext : ∀ u, Underway i u → P u → CountsDown P Q i u) :
    (∃ v, core.run k (s.offer (encode i)) = .next v ∧ v.mseq.busy = true) ∧
    ∃ t, core.run (k + 1) (s.offer (encode i)) = .next t ∧ t.atRest = true ∧ Q t := by
  have hs := step_offer hi hr hwf
  have hword : u.mseq.word = w := by
    obtain ⟨hkept, -⟩ := micro_responds (s := s.quiet.accept w (i.firstMicro s.cfg)) rfl rfl i
    rw [hu, State.accept_word] at hkept
    exact hkept
  have hund : u.undisturbed = true := by
    rw [State.atRest_eq, Bool.and_eq_true] at hr
    exact hu ▸ micro_undisturbed i (s := s.quiet.accept w (i.firstMicro s.cfg)) hr.2
  obtain ⟨k, rfl⟩ : ∃ j, k = j + 1 := Nat.exists_eq_succ_of_ne_zero (hk ▸ u.microsLeft_pos.ne')
  obtain ⟨⟨v, hv, hvb⟩, t, ht, hend⟩ := Underway.run hnext ⟨hb, hword ▸ hi, hund⟩ hP hk
  exact ⟨⟨v, run_succ_iff.2 ⟨_, hs, hu ▸ hv⟩, hvb⟩, t, run_succ_iff.2 ⟨_, hs, hu ▸ ht⟩, hend⟩

end

end Sys2Proof.Machine
end

section
/-! `TUNECH` and `CAL` run to their ends with no event arriving (spec/41_caltable.md R94 to R96). -/

namespace Sys2Proof.Machine

section
variable {P Q : State → Prop} {i : Instr} {u v : State}

theorem CountsDown.going (e : i.micro u.quiet = v) (hb : v.mseq.busy = true) (hP : P v)
    (hleft : v.microsLeft + 1 = u.microsLeft) : CountsDown P Q i u :=
  .inl (e.symm ▸ ⟨hb, hP, hleft⟩)

theorem CountsDown.ending (e : i.micro u.quiet = v) (hb : v.mseq.busy = false) (hQ : Q v) (hleft : u.microsLeft = 1) :
    CountsDown P Q i u :=
  .inr (e.symm ▸ ⟨hb, hQ, hleft⟩)

end

/-! ### TUNECH -/

/-- A `TUNECH ch` that began in `s` stands at one of its micro-steps and has written the stored synthesizer bytes. -/
structure TunechStage (s : State) (ch : Byte) (u : State) : Prop where
  fits : u.mseq.fitsTunech = true
  written : u = { s with
    syn2 := (s.entry ch.toNat).syn2, syn1 := (s.entry ch.toNat).syn1, syn0 := (s.entry ch.toNat).syn0
    out := u.out, mseq := u.mseq }

/-- How a `TUNECH ch` that began in `s` ends. -/
structure TunechEnded (s : State) (ch : Byte) (t : State) : Prop where
  written : t = { s with
    syn2 := (s.entry ch.toNat).syn2, syn1 := (s.entry ch.toNat).syn1, syn0 := (s.entry ch.toNat).syn0
    rsp := 0, out := t.out, mseq := t.mseq }
  out : t.out = ⟨none, none, false, true⟩

theorem TunechStage.next {s u : State} {ch : Byte} (hu : Underway (.tunech ch) u) (h : TunechStage s ch u) :
    CountsDown (TunechStage s ch) (TunechEnded s ch) (.tunech ch) u := by
  rcases Mseq.fits_tunech (c := u.cfg) (ch := ch) h.fits with hm | hm
  · have hwritten := congrArg (fun x : State => (x.quiet.calWrite (u.entry ch.toNat).cal).goto .u3) h.written
    exact .going (tunechMicro_u2 hm) hu.busy ⟨rfl, hwritten⟩ (by simp [State.microsLeft, hm])
  · have hwritten := congrArg (fun x : State => x.quiet.finish 0) h.written
    exact .ending (tunechMicro_u3 hm) rfl ⟨hwritten, rfl⟩ (by simp [State.microsLeft, hm])

/-- Settles O33: U1 is the first step, and `TunechStage.next` counts down from there. -/
theorem tunechRewritesTheStoredBytes : Obligations.TunechRewritesTheStoredBytes := by
  intro s ch hr hwf
  have hfirst := (tunechMicro_u1 (ch := ch) (s := s.quiet.accept (cmdWord 0x03 ch 0) .u1) rfl).trans
    (State.synWrite_entry_goto _ (s.entry ch.toNat) .u2)
  obtain ⟨hbusy, t, ht, hrest, hend⟩ :=
    run_offer (i := .tunech ch) rfl hr hwf hfirst rfl ⟨rfl, rfl⟩ rfl fun _ => TunechStage.next
  exact ⟨hbusy, t, ht, hrest, hend.written, hend.out⟩

/-! ### CAL -/

/-- The items that no micro-step of `CAL` or `SWEEP` writes. -/
def State.unswept (s : State) : Config × (Bool × Bool) × BitVec 4 × Memory × Word16 :=
  (s.cfg, s.flags, s.cursor, s.buf, s.crc)

/-- The entry that `CAL` writes, with the synthesizer bytes of `u` and the answers the radio has ready in `s`. -/
def State.calibrated (s u : State) (hz : Word32) : Entry where
  freq := hz
  syn2 := u.syn2
  syn1 := u.syn1
  syn0 := u.syn0
  cal3 := s.env.cal.extractLsb' 16 8
  cal2 := s.env.cal.extractLsb' 8 8
  cal1 := s.env.cal.extractLsb' 0 8
  current := normRssi s.env.afterCal.rssi
  max := 0

/-- What a `CAL ch, hz` that began in `s` has read and written when it stands at its next micro-step: C5 the snapshot, C6 the
sample, C7 the session. -/
def CalWritten (s : State) (ch : Byte) (hz : Word32) (u : State) : Prop :=
  match u.mseq.step with
  | .c6 => u.env = s.env.afterCal ∧ ∃ e : Entry, u.entry ch.toNat = e.snapshot u hz s.env.cal
  | .c7 => u.entry ch.toNat = s.calibrated u hz
  | .c8 => u.entry ch.toNat = s.calibrated u hz ∧ u.session = .idle
  | _ => u.env = s.env

/-- What holds after every micro-step of a `CAL ch, hz` that began in `s`. -/
structure CalFrame (s : State) (ch : Byte) (hz : Word32) (u : State) : Prop where
  kept : u.unswept = s.unswept
  syn : u.syn = synWord s.cfg hz
  others : ∀ k, k ≠ ch.toNat → u.entry k = s.entry k

/-- A `CAL ch, hz` that began in `s` stands at one of its micro-steps and has written what comes before. -/
structure CalStage (s : State) (ch : Byte) (hz : Word32) (u : State) : Prop where
  frame : CalFrame s ch hz u
  fits : u.mseq.fitsCal = true
  written : CalWritten s ch hz u

/-- How a `CAL ch, hz` that began in `s` ends. -/
structure CalEnded (s : State) (ch : Byte) (hz : Word32) (t : State) : Prop where
  frame : CalFrame s ch hz t
  entry : t.entry ch.toNat = s.calibrated t hz
  session : t.session = .idle
  rsp : t.rsp = hz

section
variable {s u : State} {ch : Byte} {hz : Word32}

theorem calMicro_unswept : (calMicro ch hz u).unswept = u.unswept := by
  unfold calMicro
  cases u.mseq.step
  case c1 => exact State.synWrite_goto_unchanged _ (fun _ => rfl) _
  all_goals rfl

theorem calMicro_syn (h : u.mseq.step ≠ .c1) : (calMicro ch hz u).syn = u.syn := by
  unfold calMicro
  cases hm : u.mseq.step
  case c1 => exact absurd hm h
  all_goals rfl

theorem CalFrame.next (h : CalFrame s ch hz u) (hm : u.mseq.step ≠ .c1) :
    CalFrame s ch hz (calMicro ch hz u.quiet) where
  kept := calMicro_unswept.trans h.kept
  syn := (calMicro_syn (u := u.quiet) hm).trans h.syn
  others k hk := (calMicro_entry_other hk).trans (h.others k hk)

/-- C1, stated of any word `v`, as `State.synWrite_goto_response` is. -/
theorem CalStage.of_synWrite {v : Word24} (hv : v = synWord s.cfg hz) (w : BitVec 48) :
    CalStage s ch hz (((s.quiet.accept w .c1).synWrite v).goto .c2) where
  frame := ⟨rfl, ((s.quiet.accept w .c1).syn_synWrite v).trans hv, fun _ _ => rfl⟩
  fits := rfl
  written := rfl

theorem CalStage.next (hu : Underway (.cal ch hz) u) (h : CalStage s ch hz u) :
    CountsDown (CalStage s ch hz) (CalEnded s ch hz) (.cal ch hz) u := by
  obtain ⟨hframe, hfits, hw⟩ := h
  have hm1 : u.mseq.step ≠ .c1 := fun hm => by simp [Mseq.fitsCal, hm] at hfits
  have hgo : ∀ {v : State}, calMicro ch hz u.quiet = v → v.mseq.busy = true → v.mseq.fitsCal = true →
      CalWritten s ch hz v → v.microsLeft + 1 = u.microsLeft →
      CountsDown (CalStage s ch hz) (CalEnded s ch hz) (.cal ch hz) u :=
    fun e hb hf hv hleft => .going e hb ⟨e ▸ hframe.next hm1, hf, hv⟩ hleft
  rcases Mseq.fits_cal (c := u.cfg) (ch := ch) (hz := hz) hfits with hm | hm | hm | hm | hm | hm | hm | hm <;>
    simp only [CalWritten, hm] at hw
  · exact hgo (calMicro_c2 hm) hu.busy rfl hw (by simp [State.microsLeft, hm])
  · exact hgo (calMicro_c3 hm) hu.busy rfl hw (by simp [State.microsLeft, hm])
  · exact hgo (calMicro_c4First hm) hu.busy rfl hw (by simp [State.microsLeft, hm])
  · exact hgo (calMicro_c4Second hm) hu.busy rfl hw (by simp [State.microsLeft, hm])
  · have hentry := u.quiet.entry_calSnapshot_same ch.toNat hz
    rw [State.quiet_env, hw] at hentry
    exact hgo (calMicro_c5 hm) hu.busy rfl ⟨congrArg Env.afterCal hw, _, hentry⟩ (by simp [State.microsLeft, hm])
  · obtain ⟨henv, e, he⟩ := hw
    have hentry := u.quiet.entry_calSample_same ch.toNat
    rw [State.quiet_env, henv, show u.quiet.entry ch.toNat = _ from he] at hentry
    exact hgo (calMicro_c6 hm) hu.busy rfl hentry (by simp [State.microsLeft, hm])
  · exact hgo (calMicro_c7 hm) hu.busy rfl ⟨hw, rfl⟩ (by simp [State.microsLeft, hm])
  · obtain ⟨hentry, hses⟩ := hw
    exact .ending (calMicro_c8 hm) rfl ⟨calMicro_c8 (s := u.quiet) hm ▸ hframe.next hm1, hentry, hses, rfl⟩
      (by simp [State.microsLeft, hm])

/-- R83: the word of an admitted frequency fits. -/
theorem synWord_toNat {c : Config} (h : freqWord c hz.toNat < 2 ^ 24) : (synWord c hz).toNat = freqWord c hz.toNat :=
  (BitVec.toNat_ofNat _ _).trans (Nat.mod_eq_of_lt h)

end

/-- Settles O31: C1 is the first step, and `CalStage.next` counts down from there. -/
theorem calWritesOneWholeEntry : Obligations.CalWritesOneWholeEntry := by
  intro s ch hz hr hwf
  have hfirst := calMicro_c1 (ch := ch) (hz := hz) (s := s.quiet.accept (cmdWord 0x02 ch hz) .c1) rfl
  obtain ⟨hbusy, t, ht, hrest, ⟨hkept, hsyn, hothers⟩, hentry, hses, hrsp⟩ :=
    run_offer (i := .cal ch hz) rfl hr hwf hfirst rfl (CalStage.of_synWrite rfl _) rfl fun _ => CalStage.next
  simp only [State.unswept, State.flags, Prod.mk.injEq] at hkept
  obtain ⟨-, ⟨hready, herror⟩, hcursor, hbuf, hcrc⟩ := hkept
  obtain ⟨-, hlt⟩ := wellFormed_cal_iff.1 hwf
  exact ⟨hbusy, t, ht, hrest, hsyn ▸ synWord_toNat hlt, hses, hrsp, hentry, hothers, hready, herror, hcursor, hbuf,
    hcrc⟩

end Sys2Proof.Machine
end

section
/-! `SWEEP` run to its end with no event arriving (spec/41_caltable.md R97 to R99, 60_exceptions.md R164): the channels in index
order, and how many of them have been sampled at each micro-step. -/

namespace Sys2Proof.Machine

/-- The entry of channel `ch` after a `SWEEP` that began in `s`: it takes the `ch`-th sample. -/
def State.sweptEntry (s : State) (ch : Nat) : Entry :=
  (s.entry ch).sampled (Env.peek (s.env.rssis.drop ch) (s.env.drawn + ch))

/-- A `SWEEP` that began in `s` has sampled the channels below `n`, and no other. -/
structure Swept (s : State) (n : Nat) (u : State) : Prop where
  rssis : u.env.rssis = s.env.rssis.drop n
  drawn : u.env.drawn = s.env.drawn + n
  done : ∀ ch, ch < n → u.entry ch = s.sweptEntry ch
  rest : ∀ ch, n ≤ ch → u.entry ch = s.entry ch

/-- How many channels a `SWEEP` in progress has sampled: S4 comes after the sample of its channel. -/
def State.sampledChannels (u : State) : Nat :=
  match u.mseq.step with
  | .s4 => u.mseq.chan + 1
  | _ => u.mseq.chan

/-- What a `SWEEP` that began in `s` has written besides the samples when it stands at its next micro-step. -/
def SweepWritten (s u : State) : Prop :=
  match u.mseq.step with
  | .s0Syn => True
  | .sEnd => u.mseq.chan = u.cfg.numChannels ∧ u.session = .idle ∧ u.syn = (s.entry (u.cfg.numChannels - 1)).syn
  | _ => u.syn = (s.entry u.mseq.chan).syn

/-- A `SWEEP` that began in `s` stands at one of its micro-steps and has sampled and written what comes before. -/
structure SweepStage (s u : State) : Prop where
  kept : u.unswept = s.unswept
  fits : u.mseq.fitsSweep u.cfg = true
  swept : Swept s u.sampledChannels u
  written : SweepWritten s u

/-- How a `SWEEP` that began in `s` ends. -/
structure SweepEnded (s t : State) : Prop where
  kept : t.unswept = s.unswept
  swept : Swept s s.cfg.numChannels t
  session : t.session = .idle
  syn : t.syn = (s.entry (s.cfg.numChannels - 1)).syn
  rsp : t.rsp = 0

section
variable {s u : State}

theorem sweepMicro_unswept : (sweepMicro u).unswept = u.unswept := by
  unfold sweepMicro
  cases u.mseq.step
  case s2 =>
    dsimp only
    split <;> rfl
  all_goals rfl

theorem Swept.zero (s : State) : Swept s 0 s := ⟨rfl, rfl, fun _ h => absurd h (Nat.not_lt_zero _), fun _ _ => rfl⟩

/-- S3: the next channel takes the next sample. -/
theorem Swept.sample {n : Nat} (h : Swept s n u) : Swept s (n + 1) (u.sweepSample n) where
  rssis := (congrArg List.tail h.rssis).trans List.tail_drop
  drawn := congrArg (· + 1) h.drawn
  done ch hch := by
    rcases Nat.lt_succ_iff_lt_or_eq.1 hch with hlt | rfl
    · exact (u.entry_sweepSample_other (Nat.ne_of_lt hlt)).trans (h.done ch hlt)
    · rw [u.entry_sweepSample_same, h.rest ch (Nat.le_refl _), Env.rssi, h.rssis, h.drawn, State.sweptEntry]
  rest ch hch := (u.entry_sweepSample_other (by omega)).trans (h.rest ch (by omega))

/-- A step that neither samples nor writes the table. -/
theorem Swept.congr {v : State} {n : Nat} (h : Swept s n u) (henv : v.env = u.env)
    (he : ∀ ch, v.entry ch = u.entry ch) : Swept s n v where
  rssis := henv ▸ h.rssis
  drawn := henv ▸ h.drawn
  done ch hch := (he ch).trans (h.done ch hch)
  rest ch hch := (he ch).trans (h.rest ch hch)

/-- The channels after the `k`-th of `n`, at `d` micro-steps each, and those after the next one. -/
theorem channelsAfter_mul {n k d : Nat} (h : k + 1 < n) : (n - k - 1) * d = d + (n - (k + 1) - 1) * d := by
  obtain ⟨j, rfl⟩ : ∃ j, n = k + 1 + 1 + j := Nat.exists_eq_add_of_le h
  rw [show k + 1 + 1 + j - k - 1 = j + 1 by omega, show k + 1 + 1 + j - (k + 1) - 1 = j by omega,
    Nat.succ_mul, Nat.add_comm]

theorem sweepMicro_s4_of_lt (hm : u.mseq.step = .s4) (h : u.mseq.chan + 1 < u.cfg.numChannels) :
    sweepMicro u = { (u.strobe .idle).setSession .idle with
      mseq := { u.mseq with chan := u.mseq.chan + 1, n := 0, step := .s0Syn } } :=
  (sweepMicro_s4 hm).trans (by simp [State.sweepChannel, h])

theorem sweepMicro_s4_of_not_lt (hm : u.mseq.step = .s4) (h : ¬ u.mseq.chan + 1 < u.cfg.numChannels) :
    sweepMicro u = { (u.strobe .idle).setSession .idle with
      mseq := { u.mseq with chan := u.mseq.chan + 1, n := 0, step := .sEnd } } :=
  (sweepMicro_s4 hm).trans (by simp [State.sweepChannel, h])

/-- The counters: every micro-step of `SWEEP` but the response leads to another, with exactly one less to take. -/
theorem sweepMicro_counters (hd : 0 < u.cfg.dwellIter) (hfits : u.mseq.fitsSweep u.cfg = true)
    (hend : u.mseq.step ≠ .sEnd) :
    (sweepMicro u).mseq.busy = u.mseq.busy ∧ (sweepMicro u).mseq.fitsSweep (sweepMicro u).cfg = true ∧
      (sweepMicro u).microsLeft + 1 = u.microsLeft := by
  rcases Mseq.fits_sweep hfits with hm | ⟨hch, hm | hm | hm | ⟨hm, hn⟩ | hm | hm⟩
  · exact absurd hm hend
  · rw [sweepMicro_s0Syn hm]
    refine ⟨rfl, decide_eq_true hch, ?_⟩
    simp only [State.microsLeft, hm, State.goto_mseq, State.goto_cfg, State.synWrite_mseq, State.synWrite_cfg]
    omega
  · rw [sweepMicro_s0Cal hm]
    refine ⟨rfl, decide_eq_true hch, ?_⟩
    simp only [State.microsLeft, hm, State.goto_mseq, State.goto_cfg, State.calWrite_mseq, State.calWrite_cfg]
    omega
  · rw [sweepMicro_s1 hm]
    refine ⟨rfl, Bool.and_eq_true_iff.2 ⟨decide_eq_true hch, decide_eq_true hd⟩, ?_⟩
    simp only [State.microsLeft, hm, State.goto_mseq, State.goto_cfg, State.armRx_mseq, State.armRx_cfg]
    omega
  · rw [sweepMicro_s2 hm]
    split
    · rename_i hmore
      refine ⟨rfl, Bool.and_eq_true_iff.2 ⟨decide_eq_true hch, decide_eq_true hmore⟩, ?_⟩
      simp only [State.microsLeft, hm, State.tickTo_mseq, State.tickTo_cfg]
      omega
    · refine ⟨rfl, decide_eq_true hch, ?_⟩
      simp only [State.microsLeft, hm, State.goto_mseq, State.goto_cfg, State.confirmRx_mseq, State.confirmRx_cfg]
      omega
  · rw [sweepMicro_s3 hm]
    refine ⟨rfl, decide_eq_true hch, ?_⟩
    simp only [State.microsLeft, hm, State.goto_mseq, State.goto_cfg, State.sweepSample_mseq, State.sweepSample_cfg]
    omega
  · by_cases hmore : u.mseq.chan + 1 < u.cfg.numChannels
    · have hleft := channelsAfter_mul (d := 5 + u.cfg.dwellIter) hmore
      rw [sweepMicro_s4_of_lt hm hmore]
      refine ⟨rfl, decide_eq_true hmore, ?_⟩
      simp only [State.microsLeft, hm, State.setSession_cfg, State.strobe_cfg, hleft]
      omega
    · have hlast : u.cfg.numChannels - u.mseq.chan - 1 = 0 := by omega
      rw [sweepMicro_s4_of_not_lt hm hmore]
      refine ⟨rfl, rfl, ?_⟩
      simp only [State.microsLeft, hm, hlast, Nat.zero_mul]

/-- What each micro-step of `SWEEP` but the response samples and writes. -/
theorem SweepStage.written_next (h : SweepStage s u) (hend : u.mseq.step ≠ .sEnd) :
    Swept s (sweepMicro u).sampledChannels (sweepMicro u) ∧ SweepWritten s (sweepMicro u) := by
  obtain ⟨-, hfits, hswept, hw⟩ := h
  rcases Mseq.fits_sweep hfits with hm | ⟨hch, hm | hm | hm | ⟨hm, hn⟩ | hm | hm⟩
  · exact absurd hm hend
  all_goals simp only [State.sampledChannels, SweepWritten, hm] at hswept hw
  · rw [sweepMicro_s0Syn hm]
    exact ⟨hswept.congr rfl fun _ => rfl,
      (u.syn_synWrite _).trans (congrArg Entry.syn (hswept.rest _ (Nat.le_refl _)))⟩
  · rw [sweepMicro_s0Cal hm]
    exact ⟨hswept.congr rfl fun _ => rfl, hw⟩
  · rw [sweepMicro_s1 hm]
    exact ⟨hswept.congr rfl fun _ => rfl, hw⟩
  · rw [sweepMicro_s2 hm]
    split <;> exact ⟨hswept.congr rfl fun _ => rfl, hw⟩
  · rw [sweepMicro_s3 hm]
    exact ⟨hswept.sample.congr rfl fun _ => rfl, hw⟩
  · by_cases hmore : u.mseq.chan + 1 < u.cfg.numChannels
    · rw [sweepMicro_s4_of_lt hm hmore]
      exact ⟨hswept.congr rfl fun _ => rfl, trivial⟩
    · have hall : u.mseq.chan + 1 = u.cfg.numChannels := by omega
      have hlast : u.mseq.chan = u.cfg.numChannels - 1 := by omega
      rw [sweepMicro_s4_of_not_lt hm hmore]
      exact ⟨hswept.congr rfl fun _ => rfl, hall, rfl, hlast ▸ hw⟩

theorem SweepStage.next (hd : 0 < s.cfg.dwellIter) (hu : Underway .sweep u) (h : SweepStage s u) :
    CountsDown (SweepStage s) (SweepEnded s) .sweep u := by
  have hcfg : u.cfg = s.cfg := congrArg Prod.fst h.kept
  have hquiet : SweepStage s u.quiet := ⟨h.kept, h.fits, h.swept.congr rfl fun _ => rfl, h.written⟩
  have hkept : (sweepMicro u.quiet).unswept = s.unswept := sweepMicro_unswept.trans h.kept
  by_cases hm : u.mseq.step = .sEnd
  · have hswept := h.swept
    have hw := h.written
    simp only [State.sampledChannels, SweepWritten, hm, hcfg] at hswept hw
    obtain ⟨hall, hses, hsyn⟩ := hw
    rw [hall] at hswept
    exact .ending (sweepMicro_sEnd hm) rfl ⟨h.kept, hswept.congr rfl fun _ => rfl, hses, hsyn, rfl⟩
      (by simp [State.microsLeft, hm])
  · obtain ⟨hb, hfits, hleft⟩ := sweepMicro_counters (u := u.quiet) (hcfg ▸ hd) h.fits hm
    obtain ⟨hswept, hw⟩ := hquiet.written_next hm
    exact .going rfl (hb.trans hu.busy) ⟨hkept, hfits, hswept, hw⟩ hleft

/-- R97: S0 of channel 0 begins in the step that accepts the word, and the rest of the bound is left. -/
theorem SweepStage.of_accept (hch : 0 < s.cfg.numChannels) (w : BitVec 48) (m : Micro) :
    SweepStage s (((s.quiet.accept w m).synWrite (s.entry 0).syn).goto .s0Cal) ∧
      (((s.quiet.accept w m).synWrite (s.entry 0).syn).goto .s0Cal).microsLeft =
        s.cfg.numChannels * (5 + s.cfg.dwellIter) := by
  refine ⟨⟨rfl, decide_eq_true hch, (Swept.zero s).congr rfl fun _ => rfl, (s.quiet.accept w m).syn_synWrite _⟩, ?_⟩
  have hsucc := Nat.succ_mul (s.cfg.numChannels - 1) (5 + s.cfg.dwellIter)
  rw [show (s.cfg.numChannels - 1).succ = s.cfg.numChannels by omega] at hsucc
  change 4 + s.cfg.dwellIter + ((s.cfg.numChannels - 1) * (5 + s.cfg.dwellIter) + 1) = _
  omega

end

/-- Settles O36: S0 of channel 0 begins in the first step, and `SweepStage.next` counts down from there. -/
theorem sweepVisitsEveryChannelOnce : Obligations.SweepVisitsEveryChannelOnce := by
  intro s hr hcfg
  obtain ⟨hch, hd⟩ : 0 < s.cfg.numChannels ∧ 0 < s.cfg.dwellIter := by
    simp only [Config.wf, Bool.and_eq_true, decide_eq_true_eq] at hcfg
    omega
  obtain ⟨hstage, hleft⟩ := SweepStage.of_accept hch (cmdWord 0x04 0 0) (sweepFirst s.cfg)
  obtain ⟨hbusy, t, ht, hrest, hkept, hswept, hses, hsyn, hrsp⟩ :=
    run_offer (i := .sweep) rfl hr rfl (sweepMicro_s0Syn (if_pos hch)) rfl hstage hleft fun _ => SweepStage.next hd
  simp only [State.unswept, State.flags, Prod.mk.injEq] at hkept
  obtain ⟨-, ⟨hready, herror⟩, hcursor, hbuf, hcrc⟩ := hkept
  exact ⟨hbusy, t, ht, hrest, hses, hrsp, hswept.done, hsyn, hready, herror, hcursor, hbuf, hcrc⟩

end Sys2Proof.Machine
end

section
/-! What the byte handler and the overflow handler do (spec/42_frame.md R110 to R114), from the state to what follows. -/

namespace Sys2Proof.Machine

theorem State.storesByte_iff (s : State) :
    s.storesByte = true ↔ s.session = .receiving ∧ s.cursor.toNat < frameLen - 1 := by
  simp [State.storesByte]

theorem State.completes_iff (s : State) :
    s.completes = true ↔ s.session = .receiving ∧ s.cursor.toNat = frameLen - 2 := by
  refine ⟨State.receiving_of_completes, fun ⟨hrec, hcur⟩ => ?_⟩
  have hlt : s.cursor.toNat < frameLen - 1 := by rw [hcur]; decide
  simp only [State.completes, (s.storesByte_iff).2 ⟨hrec, hlt⟩, hcur, decide_true, Bool.and_self]

/-- The state after the byte handler has stored `b` at the cursor (R111). -/
def State.withByte (s : State) (b : Byte) : State := { s.rxRead.appendByte b with cursor := s.cursor + 1 }

/-- The byte handler as one equation: the byte is dropped, stored, or stored with the completion of the frame. -/
theorem exec_evByte_eq (s : State) (b : Byte) :
    exec (.evByte b) s = .next (if s.storesByte then
      if s.completes then (s.withByte b).complete.returnFromEvent else (s.withByte b).returnFromEvent
      else s.returnFromEvent) := by
  obtain ⟨t, h⟩ := exec_event_next (i := .evByte b) rfl s
  rw [h]
  rcases exec_evByte_cases h with ⟨hst, rfl⟩ | ⟨hst, hcomp, rfl⟩ | ⟨hst, hcomp, rfl⟩
  · simp [hst]
  · simp [hst, hcomp, State.withByte]
  · simp [hst, hcomp, State.withByte]

/-- R111: below the last byte the handler stores. -/
theorem exec_evByte_of_lt {s : State} (b : Byte) (hrec : s.session = .receiving)
    (hlt : s.cursor.toNat < frameLen - 2) : exec (.evByte b) s = .next (s.withByte b).returnFromEvent := by
  have hst : s.storesByte = true := (s.storesByte_iff).2 ⟨hrec, Nat.lt_succ_of_lt hlt⟩
  have hcomp : ¬ s.completes = true := fun h => hlt.ne ((s.completes_iff).1 h).2
  rw [exec_evByte_eq, if_pos hst, if_neg hcomp]

/-- R112: the last byte completes the frame. -/
theorem exec_evByte_of_last {s : State} (b : Byte) (hrec : s.session = .receiving)
    (hcur : s.cursor.toNat = frameLen - 2) :
    exec (.evByte b) s = .next (s.withByte b).complete.returnFromEvent := by
  have hst : s.storesByte = true := (s.storesByte_iff).2 ⟨hrec, by rw [hcur]; decide⟩
  rw [exec_evByte_eq, if_pos hst, if_pos ((s.completes_iff).2 ⟨hrec, hcur⟩)]

theorem State.withByte_eq (s : State) (b : Byte) : s.withByte b = { s with
    buf := (s.withByte b).buf, cursor := s.cursor + 1
    out := { s.out with rxRd := true }
    env := if s.pendData = none then s.env.afterRx else s.env } := by
  rw [State.withByte, State.appendByte_eq, State.rxRead_eq]

theorem State.withByte_cursor {s : State} (b : Byte) (h : s.cursor.toNat < frameLen) :
    (s.withByte b).cursor.toNat = s.cursor.toNat + 1 :=
  BitVec.toNat_add_of_lt (show s.cursor.toNat + 1 < 16 by rw [frameLen_eq] at h; omega)

theorem State.get?_withByte_same (s : State) (b : Byte) :
    Sparse.get? (s.withByte b).buf s.cursor.toNat = some (if s.cursor.toNat < dataBytes then rev8 b else b) :=
  s.rxRead.get?_appendByte_same b

theorem State.get?_withByte_other (s : State) (b : Byte) {j : Nat} (h : j ≠ s.cursor.toNat) :
    Sparse.get? (s.withByte b).buf j = Sparse.get? s.buf j :=
  s.rxRead.get?_appendByte_other b h

theorem State.bufRead_of_get? {s : State} {i : Nat} {v : Byte} (h : Sparse.get? s.buf i = some v) :
    s.bufRead i = v := by
  rw [State.bufRead, h, Option.getD_some]

theorem State.bufRead_eq_of_get? {s t : State} {i : Nat} (h : Sparse.get? t.buf i = Sparse.get? s.buf i)
    (he : t.epoch = s.epoch) : t.bufRead i = s.bufRead i := by
  rw [State.bufRead, State.bufRead, h, he]

theorem State.withByte_epoch (s : State) (b : Byte) : (s.withByte b).epoch = s.epoch := by
  rw [State.withByte_eq]

/-- Settles O41: the handler's writes. -/
theorem frameStartRestartsTheReception : Obligations.FrameStartRestartsTheReception := fun _ => rfl

/-- Settles O45: the handler's writes. -/
theorem overflowAbortsTheReception : Obligations.OverflowAbortsTheReception := fun _ => rfl

/-- Settles O44: neither alternative stores. -/
theorem byteIsDroppedOutsideAReception : Obligations.ByteIsDroppedOutsideAReception := by
  intro s b hdrop
  have hst : ¬ s.storesByte = true := by
    rw [State.storesByte_iff]
    rintro ⟨hrec, hlt⟩
    rcases hdrop with hne | hge
    · exact hne hrec
    · exact Nat.not_lt.2 hge hlt
  rw [exec_evByte_eq, if_neg hst]
  rfl

/-- Settles O42: `exec_evByte_of_lt`, with what storing a byte leaves. -/
theorem byteIsStoredAtTheCursor : Obligations.ByteIsStoredAtTheCursor := by
  intro s b hrec hlt
  refine ⟨_, exec_evByte_of_lt b hrec hlt, ?_, s.withByte_cursor b (Nat.lt_of_lt_of_le hlt (by decide)),
    State.bufRead_of_get? (s := (s.withByte b).returnFromEvent) (s.get?_withByte_same b),
    fun j hj => State.bufRead_eq_of_get? (s.get?_withByte_other b hj) (s.withByte_epoch b)⟩
  conv_lhs => rw [State.withByte_eq]
  rfl

theorem State.bufRead_complete (s : State) (j : Nat) :
    s.complete.bufRead j =
      if j = idxFoe then (s.env.pollIsr .idle s.cfg.pollMaxIsr).foe
      else if j = idxLqi then s.bufRead idxLqi &&& 0x7F
      else if j = idxRssi then normRssi (s.bufRead idxRssi)
      else s.bufRead j := by
  rw [State.bufRead, State.complete_get?]
  split_ifs <;> rfl

theorem State.cursor_succ_of_last {s : State} (h : s.cursor.toNat = frameLen - 2) : s.cursor + 1 = 10 :=
  BitVec.eq_of_toNat_eq ((BitVec.toNat_add_of_lt (show s.cursor.toNat + 1 < 16 by rw [h]; decide)).trans (by rw [h]; rfl))

theorem State.complete_withByte_eq (s : State) (b : Byte) : (s.withByte b).complete = { s with
    buf := (s.withByte b).complete.buf, cursor := s.cursor + 1, session := .frameReady, frameReady := true
    out := { s.out with rxRd := true, strobe := some .idle }
    env := ((if s.pendData = none then s.env.afterRx else s.env).pollIsr .idle s.cfg.pollMaxIsr).afterFoe } := by
  rw [State.complete_eq]
  generalize (s.withByte b).complete.buf = m
  rw [State.withByte_eq]

/-- Settles O43: `exec_evByte_of_last`, with what the completion makes of the buffer that holds the tenth byte. -/
theorem tenthByteCompletesTheFrame : Obligations.TenthByteCompletesTheFrame := by
  intro s b hrec hcur
  have hlqi : (s.withByte b).bufRead idxLqi = b := by
    have hsame := State.bufRead_of_get? (s.get?_withByte_same b)
    rwa [hcur] at hsame
  have hother : ∀ j, j ≠ idxLqi → (s.withByte b).bufRead j = s.bufRead j := fun j hj =>
    State.bufRead_eq_of_get? (s.get?_withByte_other b (by rwa [hcur])) (s.withByte_epoch b)
  have hread := (s.withByte b).bufRead_complete
  refine ⟨_, _, exec_evByte_of_last b hrec hcur, rfl, ?_, ?_, ?_, ?_, fun j h8 h9 h10 => ?_⟩
  · conv_lhs => rw [State.complete_withByte_eq, State.cursor_succ_of_last hcur]
    rfl
  · exact (hread idxRssi).trans (congrArg normRssi (hother idxRssi (by decide)))
  · exact (hread idxLqi).trans (congrArg (· &&& 0x7F) hlqi)
  · refine (hread idxFoe).trans ?_
    rw [if_pos rfl, State.withByte_eq]
  · refine (hread j).trans ?_
    rw [if_neg h10, if_neg h9, if_neg h8, hother j h9]

end Sys2Proof.Machine
end

section
/-! Where `session` changes (spec/42_frame.md R115). -/

namespace Sys2Proof.Machine

/-- R90: `ConfirmRx()` leads from `CALIBRATING` to `LISTENING` and nowhere else. -/
theorem State.confirmRx_session_cases (s : State) :
    s.confirmRx.session = s.session ∨ (s.session = .calibrating ∧ s.confirmRx.session = .listening) := by
  by_cases h : s.session = .calibrating
  · exact .inr ⟨h, if_pos h⟩
  · exact .inl (if_neg h)

/-- R118: `CLRRDY` leads from `FRAME_READY` to `IDLE` and nowhere else. -/
theorem State.clearReady_session_cases (s : State) :
    s.clearReady.session = s.session ∨ (s.session = .frameReady ∧ s.clearReady.session = .idle) := by
  by_cases h : s.session = .frameReady
  · exact .inr ⟨h, if_pos h⟩
  · exact .inl (if_neg h)

theorem SessionRow.clrrdy {s t : State} (ht : t.session = s.clearReady.session) (hne : t.session ≠ s.session) :
    SessionRow .clrrdy s t := by
  rcases s.clearReady_session_cases with h | ⟨hready, hidle⟩
  · exact absurd (ht.trans h) hne
  · simp [SessionRow, ht.trans hidle, hready]

section
variable {s : State}

theorem tuneMicro_session (hz : Word32) : (tuneMicro hz s).session = s.session ∨
    (s.mseq.step = .t1 ∧ (tuneMicro hz s).session = .idle) ∨
    (s.mseq.step = .t5 ∧ (tuneMicro hz s).session = .calibrating) ∨
    (s.mseq.step = .t7Poll ∧ s.session = .calibrating ∧ (tuneMicro hz s).session = .listening) := by
  unfold tuneMicro
  cases s.mseq.step
  case t1 => exact .inr (.inl ⟨rfl, rfl⟩)
  case t2Poll => exact .inl (State.waitPoll_unchanged _ rfl rfl fun _ => rfl)
  case t4 => exact .inl (State.synWrite_goto_unchanged _ (fun _ => rfl) _)
  case t5 => exact .inr (.inr (.inl ⟨rfl, rfl⟩))
  case t7Poll =>
    dsimp only
    rcases s.waitPoll_cases .rx s.cfg.pollMaxRx .t7Tick (fun t => t.confirmRx.goto .t8) with ⟨-, e⟩ | ⟨-, -, e⟩ <;>
      rw [e]
    · rcases State.confirmRx_session_cases { s with env := s.env.afterMode } with h | ⟨hcal, hlis⟩
      · exact .inl h
      · exact .inr (.inr (.inr ⟨rfl, hcal, hlis⟩))
    · exact .inl rfl
  all_goals exact .inl rfl

theorem calMicro_session (ch : Byte) (hz : Word32) : (calMicro ch hz s).session = s.session ∨
    ((s.mseq.step = .c2 ∨ s.mseq.step = .c3) ∧ (calMicro ch hz s).session = .calibrating) ∨
    (s.mseq.step = .c4Second ∧ s.session = .calibrating ∧ (calMicro ch hz s).session = .listening) ∨
    (s.mseq.step = .c7 ∧ (calMicro ch hz s).session = .idle) := by
  unfold calMicro
  cases s.mseq.step
  case c1 => exact .inl (State.synWrite_goto_unchanged _ (fun _ => rfl) _)
  case c2 => exact .inr (.inl ⟨.inl rfl, rfl⟩)
  case c3 => exact .inr (.inl ⟨.inr rfl, rfl⟩)
  case c4Second => exact s.confirmRx_session_cases.imp_right fun ⟨hcal, hlis⟩ => .inr (.inl ⟨rfl, hcal, hlis⟩)
  case c7 => exact .inr (.inr (.inr ⟨rfl, rfl⟩))
  all_goals exact .inl rfl

theorem tunechMicro_session (ch : Byte) : (tunechMicro ch s).session = s.session := by
  unfold tunechMicro
  cases s.mseq.step <;> rfl

theorem sweepMicro_session : (sweepMicro s).session = s.session ∨
    (s.mseq.step = .s1 ∧ (sweepMicro s).session = .calibrating) ∨
    (s.mseq.step = .s2 ∧ s.session = .calibrating ∧ (sweepMicro s).session = .listening) ∨
    (s.mseq.step = .s4 ∧ (sweepMicro s).session = .idle) := by
  unfold sweepMicro
  cases s.mseq.step
  case s1 => exact .inr (.inl ⟨rfl, rfl⟩)
  case s2 =>
    dsimp only
    split
    · exact .inl rfl
    · exact s.confirmRx_session_cases.imp_right fun ⟨hcal, hlis⟩ => .inr (.inl ⟨rfl, hcal, hlis⟩)
  case s4 => exact .inr (.inr (.inr ⟨rfl, rfl⟩))
  all_goals exact .inl rfl

/-- The rows of the commands, for a command in progress. -/
theorem micro_session {i : Instr} (hb : s.mseq.busy = true) (hne : (i.micro s).session ≠ s.session) :
    SessionRow i s (i.micro s) := by
  cases i with
  | tune hz =>
    rcases tuneMicro_session (s := s) hz with h | ⟨hm, h⟩ | ⟨hm, h⟩ | ⟨hm, hcal, h⟩
    · exact absurd h hne
    · simp [SessionRow, Instr.micro, hm, h]
    · simp [SessionRow, Instr.micro, hm, h, hb, State.atMicro]
    · simp [SessionRow, Instr.micro, hm, h, hb, hcal, State.atMicro]
  | cal ch hz =>
    rcases calMicro_session (s := s) ch hz with h | ⟨hm, h⟩ | ⟨hm, hcal, h⟩ | ⟨hm, h⟩
    · exact absurd h hne
    · rcases hm with hm | hm <;> simp [SessionRow, Instr.micro, hm, h, hb, State.atMicro]
    · simp [SessionRow, Instr.micro, hm, h, hb, hcal, State.atMicro]
    · simp [SessionRow, Instr.micro, hm, h, hb, State.atMicro]
  | tunech ch => exact absurd (tunechMicro_session ch) hne
  | sweep =>
    rcases sweepMicro_session (s := s) with h | ⟨hm, h⟩ | ⟨hm, hcal, h⟩ | ⟨hm, h⟩
    · exact absurd h hne
    · simp [SessionRow, Instr.micro, hm, h, hb, State.atMicro]
    · simp [SessionRow, Instr.micro, hm, h, hb, hcal, State.atMicro]
    · simp [SessionRow, Instr.micro, hm, h, hb, State.atMicro]
  | clrrdy => exact SessionRow.clrrdy rfl hne
  | _ => exact absurd rfl hne

end

theorem sweepFirst_cases (c : Config) : sweepFirst c = .s0Syn ∨ sweepFirst c = .sEnd := ite_eq_or_eq _ _ _

/-- The rows of the commands, for a command just accepted: T1 of `TUNE`, and `CLRRDY`. -/
theorem accept_session {i : Instr} {w : BitVec 48} {s : State} (hb : s.mseq.busy = false)
    (hne : (i.micro (s.accept w (i.firstMicro s.cfg))).session ≠ s.session) :
    SessionRow i s (i.micro (s.accept w (i.firstMicro s.cfg))) := by
  cases i with
  | tune hz => exact .inr (.inr (.inr (.inl ⟨⟨hz, rfl⟩, .inl hb, rfl⟩)))
  | cal ch hz =>
    have h := congrArg State.session (calMicro_c1 (s := s.accept w .c1) (ch := ch) (hz := hz) rfl)
    exact absurd (h.trans (State.synWrite_goto_unchanged _ (fun _ => rfl) _)) hne
  | tunech ch => exact absurd (tunechMicro_session ch) hne
  | sweep =>
    rcases sweepFirst_cases s.cfg with hm | hm
    · exact absurd (congrArg State.session (sweepMicro_s0Syn (s := s.accept w (sweepFirst s.cfg)) hm)) hne
    · exact absurd (congrArg State.session (sweepMicro_sEnd (s := s.accept w (sweepFirst s.cfg)) hm)) hne
  | clrrdy => exact SessionRow.clrrdy rfl hne
  | _ => exact absurd rfl hne

theorem exec_command_session {i : Instr} {w : BitVec 48} {s t : State} (hi : encode i = .command w)
    (h : exec i s = .next t) (hne : t.session ≠ s.session) : SessionRow i s t := by
  rcases exec_command_next hi h with ⟨hb, rfl⟩ | ⟨hb, -, rfl⟩ | ⟨-, -, rfl⟩
  · exact accept_session hb hne
  · exact micro_session hb hne
  · exact absurd rfl hne

/-- `exec` of every operation changes the session only in its rows. -/
theorem exec_session {i : Instr} {s t : State} (h : exec i s = .next t) (hne : t.session ≠ s.session) :
    SessionRow i s t := by
  cases hw : encode i with
  | command w => exact exec_command_session hw h hne
  | event w =>
    cases i with
    | evSfd =>
      cases h
      exact .inl ⟨rfl, rfl⟩
    | evByte b =>
      rcases exec_evByte_cases h with ⟨-, rfl⟩ | ⟨-, -, rfl⟩ | ⟨-, hcomp, rfl⟩
      · exact absurd rfl hne
      · rw [State.appendByte_eq] at hne
        exact absurd rfl hne
      · obtain ⟨hrec, hcur⟩ := State.receiving_of_completes hcomp
        exact .inr (.inl ⟨⟨b, rfl⟩, hrec, hcur, rfl⟩)
    | evOvf =>
      cases h
      exact .inr (.inr (.inl ⟨rfl, rfl⟩))
    | _ => cases hw

/-- Settles O54: `exec_session`, from the state in which the step runs its operation, where the rows' items are those of
`s`. -/
theorem sessionChangesOnlyAsTabulated : Obligations.SessionChangesOnlyAsTabulated := by
  refine ⟨fun i s t h hne => exec_session h hne, fun s t h hne => ?_⟩
  rcases step_by_nextOp h with ⟨hrst, rfl⟩ | ⟨i, u, hop, hex, hu⟩ | ht
  · exact .inl ⟨hrst, rfl⟩
  · have hrow := exec_session hex
    rw [hu] at hrow
    exact .inr ⟨i, hop, hrow hne⟩
  · have hsession := congrArg State.session ht
    exact absurd hsession hne

end Sys2Proof.Machine
end

section
/-! The invariant under every step (spec/42_frame.md R116 (a), (b), 10_state.md R29, R39 to R41, 20_memory.md R46, R48): where a
command may stand, what its micro-steps keep, and what the handlers keep. -/

namespace Sys2Proof.Machine

/-- Command `i` stands at its first micro-step, or at a later one with its counters in range. -/
def Mseq.standsIn (c : Config) (m : Mseq) (i : Instr) : Prop :=
  (m.step = i.firstMicro c ∧ m.chan = 0) ∨ m.fits c i = true

/-! ### The micro-steps -/

section
variable {s : State}

theorem tuneMicro_fits {hz : Word32} (h : s.mseq.standsIn s.cfg (.tune hz)) :
    tuneMicro hz s = s.finish hz ∨ (tuneMicro hz s).mseq.fits s.cfg (.tune hz) = true := by
  rcases h with ⟨hm, -⟩ | hfits
  · rw [tuneMicro_t1 hm]
    exact .inr (decide_eq_true (Nat.zero_le s.cfg.pollMaxIdle))
  rcases Mseq.fits_tune hfits with ⟨hm, hn⟩ | ⟨hm, hn⟩ | hm | hm | hm | hm | ⟨hm, hn⟩ | ⟨hm, hn⟩ | hm
  · rw [tuneMicro_t2Poll hm]
    rcases s.waitPoll_cases .idle s.cfg.pollMaxIdle .t2Tick (fun t => t.goto .t3) with ⟨-, e⟩ | ⟨-, hlimit, e⟩ <;> rw [e]
    · exact .inr rfl
    · exact .inr (decide_eq_true (Nat.lt_of_le_of_ne hn hlimit))
  · rw [tuneMicro_t2Tick hm]
    exact .inr (decide_eq_true hn)
  · rw [tuneMicro_t3 hm]
    exact .inr rfl
  · rw [tuneMicro_t4 hm, State.synWrite_goto_eq]
    exact .inr rfl
  · rw [tuneMicro_t5 hm]
    exact .inr rfl
  · rw [tuneMicro_t6 hm]
    exact .inr (decide_eq_true (Nat.zero_le s.cfg.pollMaxRx))
  · rw [tuneMicro_t7Poll hm]
    rcases s.waitPoll_cases .rx s.cfg.pollMaxRx .t7Tick (fun t => t.confirmRx.goto .t8) with ⟨-, e⟩ | ⟨-, hlimit, e⟩ <;>
      rw [e]
    · exact .inr rfl
    · exact .inr (decide_eq_true (Nat.lt_of_le_of_ne hn hlimit))
  · rw [tuneMicro_t7Tick hm]
    exact .inr (decide_eq_true hn)
  · exact .inl (tuneMicro_t8 hm)

theorem calMicro_fits {ch : Byte} {hz : Word32} (h : s.mseq.standsIn s.cfg (.cal ch hz)) :
    calMicro ch hz s = s.finish hz ∨ (calMicro ch hz s).mseq.fits s.cfg (.cal ch hz) = true := by
  rcases h with ⟨hm, -⟩ | hfits
  · rw [calMicro_c1 hm, State.synWrite_goto_eq]
    exact .inr rfl
  rcases Mseq.fits_cal hfits with hm | hm | hm | hm | hm | hm | hm | hm
  · rw [calMicro_c2 hm]; exact .inr rfl
  · rw [calMicro_c3 hm]; exact .inr rfl
  · rw [calMicro_c4First hm]; exact .inr rfl
  · rw [calMicro_c4Second hm]; exact .inr rfl
  · rw [calMicro_c5 hm]; exact .inr rfl
  · rw [calMicro_c6 hm]; exact .inr rfl
  · rw [calMicro_c7 hm]; exact .inr rfl
  · exact .inl (calMicro_c8 hm)

theorem tunechMicro_fits {ch : Byte} (h : s.mseq.standsIn s.cfg (.tunech ch)) :
    tunechMicro ch s = s.finish 0 ∨ (tunechMicro ch s).mseq.fits s.cfg (.tunech ch) = true := by
  rcases h with ⟨hm, -⟩ | hfits
  · rw [tunechMicro_u1 hm]
    exact .inr rfl
  rcases Mseq.fits_tunech hfits with hm | hm
  · rw [tunechMicro_u2 hm]
    exact .inr rfl
  · exact .inl (tunechMicro_u3 hm)

/-- Where `SWEEP` may stand: a first micro-step is S0 of channel 0, or its end where there is no channel. -/
theorem standsIn_sweep (h : s.mseq.standsIn s.cfg .sweep) : s.mseq.step = .sEnd ∨ (s.mseq.chan < s.cfg.numChannels ∧
    (s.mseq.step = .s0Syn ∨ s.mseq.step = .s0Cal ∨ s.mseq.step = .s1 ∨ (s.mseq.step = .s2 ∧ s.mseq.n < s.cfg.dwellIter) ∨
      s.mseq.step = .s3 ∨ s.mseq.step = .s4)) := by
  rcases h with ⟨hm, hchan⟩ | hfits
  · by_cases hpos : 0 < s.cfg.numChannels
    · exact .inr ⟨hchan ▸ hpos, .inl (hm.trans (if_pos hpos))⟩
    · exact .inl (hm.trans (if_neg hpos))
  · exact Mseq.fits_sweep hfits

theorem sweepMicro_fits (hdwell : 0 < s.cfg.dwellIter) (h : s.mseq.standsIn s.cfg .sweep) :
    sweepMicro s = s.finish 0 ∨ (sweepMicro s).mseq.fits s.cfg .sweep = true := by
  rcases standsIn_sweep h with hm | ⟨hch, hm | hm | hm | ⟨hm, hn⟩ | hm | hm⟩
  · exact .inl (sweepMicro_sEnd hm)
  · rw [sweepMicro_s0Syn hm]
    exact .inr (decide_eq_true hch)
  · rw [sweepMicro_s0Cal hm]
    exact .inr (decide_eq_true hch)
  · rw [sweepMicro_s1 hm]
    exact .inr (Bool.and_eq_true_iff.2 ⟨decide_eq_true hch, decide_eq_true hdwell⟩)
  · rw [sweepMicro_s2 hm]
    split
    · rename_i hmore
      exact .inr (Bool.and_eq_true_iff.2 ⟨decide_eq_true hch, decide_eq_true hmore⟩)
    · exact .inr (decide_eq_true hch)
  · rw [sweepMicro_s3 hm]
    exact .inr (decide_eq_true hch)
  · rw [sweepMicro_s4 hm]
    by_cases hmore : s.mseq.chan + 1 < s.cfg.numChannels
    · simp [State.sweepChannel, Mseq.fits, Mseq.fitsSweep, hmore]
    · simp [State.sweepChannel, Mseq.fits, Mseq.fitsSweep, hmore]

/-- R40: a micro-step ends the command, or leaves it at one of its later micro-steps. -/
theorem micro_fits {i : Instr} {w : BitVec 48} (hi : encode i = .command w) (hdwell : 0 < s.cfg.dwellIter)
    (h : s.mseq.standsIn s.cfg i) (hb : (i.micro s).mseq.busy = true) : (i.micro s).mseq.fits s.cfg i = true := by
  have hlast : ∀ {t : State} {v : Word32}, t.mseq.busy = true → t ≠ s.finish v := by
    rintro _ v hb rfl
    cases hb
  cases i with
  | tune hz => exact (tuneMicro_fits h).resolve_left (hlast hb)
  | cal ch hz => exact (calMicro_fits h).resolve_left (hlast hb)
  | tunech ch => exact (tunechMicro_fits h).resolve_left (hlast hb)
  | sweep => exact (sweepMicro_fits hdwell h).resolve_left (hlast hb)
  | evSfd => cases hi
  | evByte b => cases hi
  | evOvf => cases hi
  | _ => cases hb

end

/-- Between `s` and `t` the configuration and `in_isr` are as they were, and the table stays in canonical form. -/
def KeepsTable (s t : State) : Prop :=
  t.cfg = s.cfg ∧ t.inIsr = s.inIsr ∧
    (Table.wf s.cfg.numChannels s.tab = true → Table.wf s.cfg.numChannels t.tab = true)

/-- The items of `KeepsTable`. -/
def State.tableItems (s : State) : Config × Bool × Table := (s.cfg, s.inIsr, s.tab)

theorem KeepsTable.of_items {s t : State} (h : t.tableItems = s.tableItems) : KeepsTable s t := by
  simp only [State.tableItems, Prod.mk.injEq] at h
  obtain ⟨hcfg, hisr, htab⟩ := h
  exact ⟨hcfg, hisr, fun hwf => htab ▸ hwf⟩

/-- A write of an entry in range. -/
theorem KeepsTable.of_setEntry {s t : State} {ch : Nat} {e : Entry} (hch : ch < s.cfg.numChannels)
    (h : t.tableItems = (s.setEntry ch e).tableItems) : KeepsTable s t := by
  obtain ⟨hcfg, hisr, htab⟩ := KeepsTable.of_items h
  exact ⟨hcfg, hisr, fun hwf => htab (Table.wf_setEntry s _ ch e hwf hch)⟩

section
variable {s : State}

theorem tuneMicro_table (hz : Word32) : KeepsTable s (tuneMicro hz s) := by
  refine .of_items ?_
  unfold tuneMicro
  cases s.mseq.step
  case t2Poll => exact State.waitPoll_unchanged _ rfl rfl fun _ => rfl
  case t4 => exact State.synWrite_goto_unchanged _ (fun _ => rfl) _
  case t7Poll => exact State.waitPoll_unchanged _ rfl rfl fun _ => rfl
  all_goals rfl

theorem calMicro_table {ch : Byte} (hz : Word32) (hch : ch.toNat < s.cfg.numChannels) :
    KeepsTable s (calMicro ch hz s) := by
  unfold calMicro
  cases s.mseq.step
  case c1 => exact .of_items (State.synWrite_goto_unchanged _ (fun _ => rfl) _)
  case c5 => exact .of_setEntry hch rfl
  case c6 => exact .of_setEntry hch rfl
  all_goals exact .of_items rfl

theorem tunechMicro_table (ch : Byte) : KeepsTable s (tunechMicro ch s) := by
  unfold tunechMicro
  cases s.mseq.step <;> exact .of_items rfl

theorem sweepMicro_table (h : s.mseq.standsIn s.cfg .sweep) : KeepsTable s (sweepMicro s) := by
  have hchan : s.mseq.step = .s3 → s.mseq.chan < s.cfg.numChannels := fun hm => by
    rcases standsIn_sweep h with hend | ⟨hch, -⟩
    · cases hm.symm.trans hend
    · exact hch
  unfold sweepMicro
  cases hm : s.mseq.step
  case s2 =>
    dsimp only
    split <;> exact .of_items rfl
  case s3 => exact .of_setEntry (hchan hm) rfl
  all_goals exact .of_items rfl

theorem micro_table {i : Instr} (hwf : i.wellFormed s.cfg = true) (h : s.mseq.standsIn s.cfg i) :
    KeepsTable s (i.micro s) := by
  cases i with
  | tune hz => exact tuneMicro_table hz
  | cal ch hz => exact calMicro_table hz (wellFormed_cal_iff.1 hwf).1
  | tunech ch => exact tunechMicro_table ch
  | sweep => exact sweepMicro_table h
  | _ => exact .of_items rfl

end

/-! ### The commands -/

theorem Mseq.ok_iff {c : Config} {m : Mseq} {i : Instr} (hd : decodeCommand m.word = .ok i) :
    m.ok c = true ↔ i.wellFormed c = true ∧ m.fits c i = true := by
  rw [Mseq.ok, hd]
  exact Bool.and_eq_true_iff

theorem State.Inv.dwellIter_pos {s : State} (hs : s.Inv) : 0 < s.cfg.dwellIter := by
  have hwf := hs.cfg
  simp only [Config.wf, Bool.and_eq_true, decide_eq_true_eq] at hwf
  omega

theorem State.Inv.of_kept {s t : State} (hs : s.Inv) (hkept : KeepsOrAbandons s t) (htable : KeepsTable s t)
    (hmseq : t.mseq.busy = true → t.mseq.ok s.cfg = true) : t.Inv ∧ t.cfg = s.cfg := by
  obtain ⟨hstore, hses⟩ := hkept
  obtain ⟨hcfg, hisr, htab⟩ := htable
  simp only [State.frameStore, Prod.mk.injEq] at hstore
  obtain ⟨hbuf, hcursor, -⟩ := hstore
  exact ⟨{
    cfg := hcfg ▸ hs.cfg
    buf := hbuf ▸ hs.buf
    tab := hcfg ▸ htab hs.tab
    cursor := hcursor ▸ hs.cursor
    receiving := fun h => hcursor ▸ hs.receiving (hses h)
    notInIsr := hisr.trans hs.notInIsr
    mseq := hcfg ▸ hmseq }, hcfg⟩

/-- After a micro-step a command that goes on stands at one of its later micro-steps. -/
theorem micro_ok {i : Instr} {s : State} (hi : encode i = .command s.mseq.word) (hwf : i.wellFormed s.cfg = true)
    (hdwell : 0 < s.cfg.dwellIter) (hv : s.out.rspValid = false) (hb : s.mseq.busy = true)
    (hstands : s.mseq.standsIn s.cfg i) (hbt : (i.micro s).mseq.busy = true) : (i.micro s).mseq.ok s.cfg = true := by
  obtain ⟨hword, -⟩ := micro_responds hb hv i
  have hd : decodeCommand (i.micro s).mseq.word = .ok i := by
    rw [hword]
    exact decodeCommand_of_encode hi
  rw [Mseq.ok_iff hd]
  exact ⟨hwf, micro_fits hi hdwell hstands hbt⟩

/-- R74: a ready block that answers has checked the operands. -/
theorem wellFormed_of_exec_ready {i : Instr} {s t : State} (hb : s.mseq.busy = false) (h : exec i s = .next t) :
    i.wellFormed s.cfg = true :=
  (readyBlockRunsExactlyTheAdmitted i s hb).1 ⟨t, h⟩

theorem exec_command_inv {i : Instr} {w : BitVec 48} {s t : State} (hi : encode i = .command w) (hs : s.Inv)
    (hv : s.out.rspValid = false) (h : exec i s = .next t) : t.Inv ∧ t.cfg = s.cfg := by
  rcases exec_command_next hi h with ⟨hb, rfl⟩ | ⟨hb, hword, rfl⟩ | ⟨-, -, rfl⟩
  · have hwf := wellFormed_of_exec_ready hb h
    have hfirst : (s.accept w (i.firstMicro s.cfg)).mseq.standsIn s.cfg i := .inl ⟨rfl, rfl⟩
    have hword : encode i = .command (s.accept w (i.firstMicro s.cfg)).mseq.word := by rw [hi, s.accept_word]
    exact hs.of_kept (micro_reception i _) (micro_table (s := s.accept w (i.firstMicro s.cfg)) hwf hfirst)
      (micro_ok (s := s.accept w (i.firstMicro s.cfg)) hword hwf hs.dwellIter_pos hv rfl hfirst)
  · obtain ⟨hwf, hfits⟩ := (Mseq.ok_iff (hword ▸ decodeCommand_of_encode hi)).1 (hs.mseq hb)
    exact hs.of_kept (micro_reception i s) (micro_table hwf (.inr hfits))
      (micro_ok (hword ▸ hi) hwf hs.dwellIter_pos hv hb (.inr hfits))
  · exact ⟨hs, rfl⟩

/-! ### The handlers -/

/-- A handler that ends in `t` and keeps the items of the main context keeps the invariant if its writes to the reception
do. -/
theorem State.Inv.of_handler {s t : State} (hs : s.returnFromEvent.Inv)
    (hmain : t.cfg = s.cfg ∧ t.tab = s.tab ∧ t.mseq = s.mseq) (hbuf : Memory.wf t.buf = true)
    (hcursor : t.cursor.toNat ≤ frameLen - 1) (hrec : t.session = .receiving → t.cursor.toNat ≤ frameLen - 2) :
    t.returnFromEvent.Inv ∧ t.cfg = s.cfg := by
  obtain ⟨hcfg, htab, hmseq⟩ := hmain
  exact ⟨⟨by rw [State.returnFromEvent_cfg, hcfg]; exact hs.cfg, hbuf,
    by rw [State.returnFromEvent_cfg, State.returnFromEvent_tab, hcfg, htab]; exact hs.tab, hcursor, hrec, rfl,
    by rw [State.returnFromEvent_cfg, State.returnFromEvent_mseq, hcfg, hmseq]; exact hs.mseq⟩, hcfg⟩

/-- The byte handler: it stores below the end of the buffer only, and the byte that would end the reception completes it. -/
theorem exec_evByte_inv {b : Byte} {s t : State} (hs : s.returnFromEvent.Inv) (h : exec (.evByte b) s = .next t) :
    t.Inv ∧ t.cfg = s.cfg := by
  have hbuf : s.cursor.toNat < frameLen → Memory.wf (s.withByte b).buf = true := s.rxRead.wf_appendByte b hs.buf
  rcases exec_evByte_cases h with ⟨-, rfl⟩ | ⟨hst, hcomp, rfl⟩ | ⟨-, hcomp, rfl⟩
  · exact ⟨hs, rfl⟩
  · obtain ⟨hrec, hlt⟩ := s.storesByte_iff.1 hst
    have hnot : s.cursor.toNat ≠ frameLen - 2 := fun hlast =>
      Bool.false_ne_true (hcomp.symm.trans (s.completes_iff.2 ⟨hrec, hlast⟩))
    rw [frameLen_eq] at hlt hnot
    have hcursor := s.withByte_cursor b (by rw [frameLen_eq]; omega)
    refine hs.of_handler (t := s.withByte b) ?_ (hbuf (by rw [frameLen_eq]; omega)) ?_ fun _ => ?_
    · rw [State.withByte_eq]
      exact ⟨rfl, rfl, rfl⟩
    all_goals
      rw [hcursor, frameLen_eq]
      omega
  · obtain ⟨-, hlast⟩ := s.completes_iff.1 hcomp
    have hcursor := s.withByte_cursor b (by rw [hlast]; decide)
    refine hs.of_handler (t := (s.withByte b).complete) ?_ (State.wf_complete _ (hbuf (by rw [hlast]; decide))) ?_
      fun hrec => Session.noConfusion hrec
    · rw [State.complete_withByte_eq]
      exact ⟨rfl, rfl, rfl⟩
    · change (s.withByte b).cursor.toNat ≤ _
      rw [hcursor, hlast]
      decide

theorem exec_event_inv {i : Instr} {w : BitVec 10} {s t : State} (hi : encode i = .event w) (hs : s.returnFromEvent.Inv)
    (h : exec i s = .next t) : t.Inv ∧ t.cfg = s.cfg := by
  cases i with
  | evSfd =>
    cases h
    exact hs.of_handler (t := { s with cursor := 0, session := .receiving }) ⟨rfl, rfl, rfl⟩ hs.buf (Nat.zero_le _)
      fun _ => Nat.zero_le _
  | evByte b => exact exec_evByte_inv hs h
  | evOvf =>
    cases h
    exact hs.of_handler (t := ((s.strobe .idle).waitModeIsr .idle s.cfg.pollMaxIsr).raiseOverflow) ⟨rfl, rfl, rfl⟩ hs.buf
      (Nat.zero_le _) fun _ => Nat.zero_le _
  | _ => cases hi

/-! ### The step -/

/-- The invariant speaks neither of the scripts, nor of the pulses, nor of the latches. -/
theorem State.Inv.congr {s t : State} (hs : s.Inv) (ht : t = { s with
      env := t.env, out := t.out, pendSfd := t.pendSfd, pendByte := t.pendByte, pendOvf := t.pendOvf
      pendData := t.pendData }) : t.Inv ∧ t.cfg = s.cfg := by
  rw [ht]
  exact ⟨⟨hs.cfg, hs.buf, hs.tab, hs.cursor, hs.receiving, hs.notInIsr, hs.mseq⟩, rfl⟩

/-- The state in which a handler starts satisfies the invariant but for `in_isr`. -/
theorem State.Inv.of_takeEvent {s u : State} {i : Instr} (hs : s.Inv) (h : s.takeEvent = some (i, u)) :
    ∃ w, encode i = .event w ∧ u.returnFromEvent.Inv ∧ u.cfg = s.cfg := by
  rcases State.takeEvent_cases h with ⟨-, rfl, rfl⟩ | ⟨-, -, rfl, rfl⟩ | ⟨-, -, -, rfl, rfl⟩ <;>
    exact ⟨_, rfl, ⟨hs.cfg, hs.buf, hs.tab, hs.cursor, hs.receiving, rfl, hs.mseq⟩, rfl⟩

/-- Settles O11: an operation keeps the invariant by `exec_command_inv` and `exec_event_inv`, from the state in which the step
runs it; a reset establishes it; and every other step touches none of its items. -/
theorem everyStepKeepsTheInvariant : Obligations.EveryStepKeepsTheInvariant := by
  intro s t hs h
  obtain ⟨hturn, -⟩ := hs.congr (t := s.onTurn) rfl
  rcases step_cases h with ⟨w, rest, -, rfl⟩ | ⟨rest, -, rfl⟩ | ⟨-, rfl⟩ | ⟨-, -, i, u, htake, hex⟩ |
    ⟨-, -, i, hd, hex⟩ | ⟨-, -, -, rfl⟩ | ⟨-, -, -, rfl⟩ | ⟨-, -, w, rest, i, -, hd, hex⟩
  · refine hs.congr ?_
    unfold State.arrive
    split <;> rfl
  · exact ⟨State.inv_resetWith hs.cfg _ _, rfl⟩
  · exact hs.congr rfl
  · obtain ⟨w, hi, hu, hcfg⟩ := hturn.of_takeEvent htake
    exact (exec_event_inv hi hu hex).imp_right fun ht => ht.trans hcfg
  · have hkeep := exec_command_inv (encode_of_decodeCommand hd) hturn rfl hex
    exact hkeep
  · exact hs.congr rfl
  · exact hs.congr rfl
  · obtain ⟨haccept, -⟩ := hturn.congr (t := s.onTurn.takeCommand) rfl
    have hkeep := exec_command_inv (encode_of_decodeCommand hd) haccept rfl hex
    exact hkeep

end Sys2Proof.Machine
end

section
/-! What a reception holds (spec/42_frame.md R116 (d), R126, 20_memory.md R49): the image of the raw bytes read, byte by byte. -/

namespace Sys2Proof.Machine

/-! ### Images -/

theorem storedImage_length (raw : List Byte) : (storedImage raw).length = raw.length := by
  rw [storedImage, List.length_append, List.length_map, ← List.length_append, List.take_append_drop]

/-- R111: a further byte is reversed in the data region. -/
theorem storedImage_snoc (raw : List Byte) (b : Byte) :
    storedImage (raw ++ [b]) = storedImage raw ++ [if raw.length < dataBytes then rev8 b else b] := by
  unfold storedImage
  by_cases h : raw.length < dataBytes
  · rw [if_pos h, List.take_of_length_le (by simpa using h), List.take_of_length_le h.le,
      List.drop_of_length_le (by simpa using h), List.drop_of_length_le h.le]
    simp
  · rw [if_neg h, List.take_append_of_le_length (Nat.le_of_not_lt h), List.drop_append_of_le_length (Nat.le_of_not_lt h),
      List.append_assoc]

/-- Eight data bytes and two status bytes, as they are stored. -/
theorem storedImage_frame {data : List Byte} (hd : data.length = dataBytes) (rssi lqi : Byte) :
    storedImage (data ++ [rssi, lqi]) = data.map rev8 ++ [rssi, lqi] := by
  rw [storedImage, List.take_left' hd, List.drop_left' hd]

theorem State.bufHolds_nil (s : State) : s.bufHolds [] := fun _ hk => absurd hk (Nat.not_lt_zero _)

/-- One more byte is held where the others stay. -/
theorem State.bufHolds.snoc {s t : State} {bytes : List Byte} {v : Byte} (h : s.bufHolds bytes)
    (hv : Sparse.get? t.buf bytes.length = some v)
    (hrest : ∀ k, k < bytes.length → Sparse.get? t.buf k = Sparse.get? s.buf k) : t.bufHolds (bytes ++ [v]) := by
  intro k hk
  by_cases hlt : k < bytes.length
  · rw [hrest k hlt, h k hlt, List.getElem_append_left hlt]
  · have hlast : k = bytes.length := by
      rw [List.length_append, List.length_singleton] at hk
      omega
    subst hlast
    rw [hv, List.getElem_concat_length rfl]

theorem State.bufHolds.congr {s t : State} {bytes : List Byte} (h : s.bufHolds bytes) (hb : t.buf = s.buf) :
    t.bufHolds bytes := by
  unfold State.bufHolds
  rwa [hb]

theorem State.bufHolds_iff {s : State} {bytes : List Byte} :
    s.bufHolds bytes ↔ ∀ k, k < bytes.length → Sparse.get? s.buf k = bytes[k]? := by
  refine forall_congr' fun k => forall_congr' fun hk => ?_
  rw [List.getElem?_eq_getElem hk]

/-- The status bytes come after the eight data bytes. -/
theorem getElem?_after_data {data : List Byte} (hd : data.length = dataBytes) (status : List Byte) (j : Nat) :
    (data.map rev8 ++ status)[dataBytes + j]? = status[j]? := by
  rw [List.getElem?_append_right (by simp [hd]), List.length_map, hd, Nat.add_sub_cancel_left]

/-- R112, R126: the completion of a frame makes the frame image of what is stored. -/
theorem State.bufHolds.complete {s : State} {data : List Byte} {rssi lqi : Byte} (hd : data.length = dataBytes)
    (h : s.bufHolds (data.map rev8 ++ [rssi, lqi])) :
    s.complete.bufHolds (frameImage data rssi lqi (s.env.pollIsr .idle s.cfg.pollMaxIsr).foe) := by
  rw [State.bufHolds_iff] at h ⊢
  have hrssi : s.bufRead idxRssi = rssi :=
    State.bufRead_of_get? ((h 8 (by simp [hd])).trans (getElem?_after_data hd _ 0))
  have hlqi : s.bufRead idxLqi = lqi :=
    State.bufRead_of_get? ((h 9 (by simp [hd])).trans (getElem?_after_data hd _ 1))
  intro k hk
  have hk11 : k < 11 := by simpa [frameImage, hd] using hk
  rw [State.complete_get?, hrssi, hlqi, frameImage]
  obtain hk8 | rfl | rfl | rfl : k < 8 ∨ k = 8 ∨ k = 9 ∨ k = 10 := by omega
  · have hlen : k < (data.map rev8).length := by rwa [List.length_map, hd]
    rw [if_neg (by rw [idxFoe_eq]; omega), if_neg (by rw [idxLqi_eq]; omega), if_neg (by rw [idxRssi_eq]; omega),
      h k (by rw [List.length_append]; omega), List.getElem?_append_left hlen, List.getElem?_append_left hlen]
  · exact Eq.symm ((getElem?_after_data hd _ 0).trans rfl)
  · exact Eq.symm ((getElem?_after_data hd _ 1).trans rfl)
  · exact Eq.symm ((getElem?_after_data hd _ 2).trans rfl)

/-! ### The byte handler -/

theorem State.Receiving.session_eq {s : State} {raw : List Byte} (h : s.Receiving raw) : s.session = .receiving := by
  obtain ⟨hses, -⟩ := h
  exact hses

theorem State.Receiving.length_le {s : State} {raw : List Byte} (h : s.Receiving raw) : raw.length ≤ frameLen - 2 := by
  obtain ⟨-, hlen, -⟩ := h
  exact hlen

theorem State.Receiving.cursor_eq {s : State} {raw : List Byte} (h : s.Receiving raw) :
    s.cursor.toNat = raw.length := by
  obtain ⟨-, -, hcur, -⟩ := h
  exact hcur

/-- R111: in a reception the byte read joins the image. -/
theorem State.Receiving.withByte {s : State} {raw : List Byte} (h : s.Receiving raw) (b : Byte) :
    (s.withByte b).bufHolds (storedImage (raw ++ [b])) ∧ (s.withByte b).cursor.toNat = (raw ++ [b]).length := by
  obtain ⟨-, hlen, hcur, hholds⟩ := h
  refine ⟨?_, ?_⟩
  · rw [storedImage_snoc, ← hcur]
    refine hholds.snoc ?_ fun k hk => s.get?_withByte_other b ?_
    · rw [storedImage_length, ← hcur]
      exact s.get?_withByte_same b
    · rw [storedImage_length, ← hcur] at hk
      exact hk.ne
  · rw [s.withByte_cursor b (by rw [hcur]; exact Nat.lt_of_le_of_lt hlen (by decide)), hcur, List.length_append,
      List.length_singleton]

/-- R111: a byte below the last leaves a reception with one more raw byte. -/
theorem State.Receiving.stored {s : State} {raw : List Byte} (h : s.Receiving raw) (b : Byte)
    (hlt : raw.length < frameLen - 2) : (s.withByte b).returnFromEvent.Receiving (raw ++ [b]) := by
  obtain ⟨hholds, hcursor⟩ := h.withByte b
  have hses : (s.withByte b).session = .receiving := by
    rw [State.withByte_eq]
    exact h.session_eq
  refine ⟨hses, ?_, hcursor, hholds.congr (State.returnFromEvent_buf _)⟩
  rw [List.length_append, List.length_singleton]
  exact hlt

/-- Nine bytes and the tenth are eight data bytes and two status bytes. -/
theorem exists_data_status {raw : List Byte} (h : raw.length = frameLen - 2) (lqi : Byte) :
    ∃ data rssi, data.length = dataBytes ∧ raw ++ [lqi] = data ++ [rssi, lqi] := by
  rcases List.eq_nil_or_concat' raw with rfl | ⟨data, rssi, rfl⟩
  · cases h
  · rw [List.length_append, List.length_singleton] at h
    exact ⟨data, rssi, Nat.succ.inj h, by rw [List.append_assoc, List.singleton_append]⟩

/-- R112, R126: the tenth byte makes the frame image. -/
theorem State.Receiving.complete_withByte {s : State} {raw data : List Byte} {rssi lqi : Byte} (h : s.Receiving raw)
    (hd : data.length = dataBytes) (hraw : raw ++ [lqi] = data ++ [rssi, lqi]) :
    (s.withByte lqi).complete.bufHolds (frameImage data rssi lqi
      ((if s.pendData = none then s.env.afterRx else s.env).pollIsr .idle s.cfg.pollMaxIsr).foe) := by
  obtain ⟨hholds, -⟩ := h.withByte lqi
  rw [hraw, storedImage_frame hd] at hholds
  have himage := hholds.complete hd
  rwa [show (s.withByte lqi).env = if s.pendData = none then s.env.afterRx else s.env by rw [State.withByte_eq],
    show (s.withByte lqi).cfg = s.cfg by rw [State.withByte_eq]] at himage

/-- What a byte event does to a reception: it goes on with one more raw byte, or is completed. -/
theorem State.Receiving.exec_evByte {s t : State} {raw : List Byte} {b : Byte} (h : s.Receiving raw)
    (hex : exec (.evByte b) s = .next t) :
    t.Receiving (raw ++ [b]) ∨ (t.session = .frameReady ∧ ∃ data rssi, data.length = dataBytes ∧
      raw ++ [b] = data ++ [rssi, b] ∧ t.bufHolds (frameImage data rssi b
        ((if s.pendData = none then s.env.afterRx else s.env).pollIsr .idle s.cfg.pollMaxIsr).foe)) := by
  rcases Nat.lt_or_eq_of_le h.length_le with hlt | hlast
  · rw [exec_evByte_of_lt b h.session_eq (h.cursor_eq ▸ hlt)] at hex
    cases hex
    exact .inl (h.stored b hlt)
  · rw [exec_evByte_of_last b h.session_eq (h.cursor_eq.trans hlast)] at hex
    cases hex
    obtain ⟨data, rssi, hd, hraw⟩ := exists_data_status hlast b
    have himage := h.complete_withByte hd hraw
    exact .inr ⟨rfl, data, rssi, hd, hraw, himage.congr (State.returnFromEvent_buf _)⟩

/-! ### The step -/

theorem State.Receiving.congr {s t : State} {raw : List Byte} (h : s.Receiving raw) (hses : t.session = .receiving)
    (hbuf : t.buf = s.buf) (hcur : t.cursor = s.cursor) : t.Receiving raw := by
  obtain ⟨-, hlen, hcursor, hholds⟩ := h
  exact ⟨hses, hlen, hcur ▸ hcursor, hholds.congr hbuf⟩

/-- A frame-start begins with no byte read. -/
theorem State.receiving_nil {s : State} (hses : s.session = .receiving) (hcur : s.cursor = 0) : s.Receiving [] :=
  ⟨hses, Nat.zero_le _, by rw [hcur]; rfl, s.bufHolds_nil⟩

/-- Where the step dispatches no event, the history stays. -/
theorem State.rawAfter_of_not_dispatch {s : State} (raw : List Byte) (h : s.blockTurn = false ∨ s.noPending = true) :
    s.rawAfter raw = raw := by
  rcases h with h | h
  · simp [State.rawAfter, h]
  · simp only [State.noPending, Bool.and_eq_true, Bool.not_eq_true'] at h
    obtain ⟨⟨-, hsfd⟩, hbyte⟩ := h
    simp [State.rawAfter, hsfd, hbyte]

/-- The dispatch of a frame-start empties it. -/
theorem State.rawAfter_of_sfd {s : State} (raw : List Byte) (hb : s.blockTurn = true) (hovf : s.pendOvf = false)
    (hsfd : s.pendSfd = true) : s.rawAfter raw = [] := by
  simp [State.rawAfter, hb, hovf, hsfd]

/-- The dispatch of a byte event adds the byte its handler reads. -/
theorem State.rawAfter_of_byte {s : State} (raw : List Byte) (hb : s.blockTurn = true) (hovf : s.pendOvf = false)
    (hsfd : s.pendSfd = false) (hbyte : s.pendByte = true) : s.rawAfter raw = raw ++ [s.rxData] := by
  simp [State.rawAfter, hb, hovf, hsfd, hbyte]

/-- Between `s` and `t` a reception goes on as it was, or is abandoned, and no frame is completed. -/
structure Untouched (s t : State) : Prop where
  buf : t.buf = s.buf
  cursor : t.cursor = s.cursor
  receiving : t.session = .receiving → s.session = .receiving
  notReady : s.session = .receiving → t.session ≠ .frameReady

/-- R115: the completion of a frame alone leads to `FRAME_READY`. -/
theorem SessionRow.evByte_of_frameReady {i : Instr} {s t : State} (h : SessionRow i s t)
    (ht : t.session = .frameReady) : ∃ b, i = .evByte b := by
  simp only [SessionRow, ht, reduceCtorEq, and_false, and_true, false_or, or_false] at h
  exact h.1

theorem Untouched.of_items {s t : State} (h : (t.buf, t.cursor, t.session) = (s.buf, s.cursor, s.session)) :
    Untouched s t := by
  simp only [Prod.mk.injEq] at h
  obtain ⟨hbuf, hcursor, hses⟩ := h
  refine ⟨hbuf, hcursor, fun ht => hses ▸ ht, fun hrec => ?_⟩
  rw [hses, hrec]
  exact Session.noConfusion

theorem Untouched.trans {s u t : State} (h : Untouched s u) (h' : Untouched u t) (hses : u.session = s.session) :
    Untouched s t :=
  ⟨h'.buf.trans h.buf, h'.cursor.trans h.cursor, fun ht => h.receiving (h'.receiving ht),
    fun hrec => h'.notReady (hses.trans hrec)⟩

theorem Untouched.of_command {i : Instr} {w : BitVec 48} {s t : State} (hi : encode i = .command w)
    (h : exec i s = .next t) : Untouched s t := by
  obtain ⟨hstore, hses⟩ := exec_command_reception hi h
  simp only [State.frameStore, Prod.mk.injEq] at hstore
  obtain ⟨hbuf, hcursor, -⟩ := hstore
  refine ⟨hbuf, hcursor, hses, fun hrec hready => ?_⟩
  have hne : t.session ≠ s.session := by rw [hrec, hready]; exact Session.noConfusion
  obtain ⟨b, rfl⟩ := (exec_session h hne).evByte_of_frameReady hready
  cases hi

/-- What a step does to a reception: a reset ends it, the dispatch of an event is that of its handler, and every other step
leaves it. -/
theorem step_reception {s t : State} (h : step s = .next t) :
    t.session = .idle ∨
    (s.blockTurn = true ∧ ∃ i u, s.onTurn.takeEvent = some (i, u) ∧ exec i u = .next t) ∨
    ((s.blockTurn = false ∨ s.noPending = true) ∧ Untouched s t) := by
  have hmain : s.mainTurn = true → s.noPending = true := fun hm => (Bool.and_eq_true_iff.1 hm).2
  rcases step_cases h with ⟨w, rest, hturn, rfl⟩ | ⟨rest, -, rfl⟩ | ⟨hisr, rfl⟩ | ⟨hb, -, hdispatch⟩ |
    ⟨hm, -, i, hd, hex⟩ | ⟨hm, -, -, rfl⟩ | ⟨hm, -, -, rfl⟩ | ⟨hm, -, w, rest, i, -, hd, hex⟩
  · refine .inr (.inr ⟨.inl (by simp [State.blockTurn, hturn]), .of_items ?_⟩)
    unfold State.arrive
    split <;> rfl
  · exact .inl rfl
  · exact .inr (.inr ⟨.inl (by simp [State.blockTurn, hisr]), .of_items rfl⟩)
  · exact .inr (.inl ⟨hb, hdispatch⟩)
  · exact .inr (.inr ⟨.inr (hmain hm),
      .trans (u := s.onTurn) (.of_items rfl) (.of_command (encode_of_decodeCommand hd) hex) rfl⟩)
  · exact .inr (.inr ⟨.inr (hmain hm), .of_items rfl⟩)
  · exact .inr (.inr ⟨.inr (hmain hm), .of_items rfl⟩)
  · exact .inr (.inr ⟨.inr (hmain hm),
      .trans (u := s.onTurn.takeCommand) (.of_items rfl) (.of_command (encode_of_decodeCommand hd) hex) rfl⟩)

/-- What the dispatch of an event does to a reception, with the history of raw bytes: a frame-start begins it anew, a byte
joins it or completes it, and an overflow ends it. -/
theorem dispatch_receiving {s u t : State} {raw : List Byte} {i : Instr} (hrec : s.session = .receiving → s.Receiving raw)
    (hb : s.blockTurn = true) (htake : s.onTurn.takeEvent = some (i, u)) (hex : exec i u = .next t) :
    (t.session = .receiving → t.Receiving (s.rawAfter raw)) ∧
    (s.session = .receiving → t.session = .frameReady →
      ∃ (data : List Byte) (rssi lqi : Byte), data.length = dataBytes ∧
        s.rawAfter raw = data ++ [rssi, lqi] ∧
        t.bufHolds (frameImage data rssi lqi
          ((if s.pendData = none then s.onTurn.env.afterRx else s.onTurn.env).pollIsr .idle s.cfg.pollMaxIsr).foe)) := by
  rcases State.takeEvent_cases htake with ⟨-, rfl, rfl⟩ | ⟨hovf, hsfd, rfl, rfl⟩ | ⟨hovf, hsfd, hbyte, rfl, rfl⟩
  · cases hex
    exact ⟨fun h => Session.noConfusion h, fun _ h => Session.noConfusion h⟩
  · cases hex
    rw [State.rawAfter_of_sfd raw hb hovf hsfd]
    exact ⟨fun _ => State.receiving_nil rfl rfl, fun _ h => Session.noConfusion h⟩
  · rw [State.rawAfter_of_byte raw hb hovf hsfd hbyte]
    by_cases hses : s.session = .receiving
    · rcases ((hrec hses).congr (t := { s.onTurn with pendByte := false, inIsr := true }) hses rfl rfl).exec_evByte hex with
        ht | ⟨hready, data, rssi, hd, hraw, himage⟩
      · exact ⟨fun _ => ht, fun _ h => Session.noConfusion (ht.session_eq.symm.trans h)⟩
      · exact ⟨fun h => Session.noConfusion (hready.symm.trans h), fun _ _ => ⟨data, rssi, _, hd, hraw, himage⟩⟩
    · obtain ⟨-, honly⟩ := exec_of_not_receiving (s := { s.onTurn with pendByte := false, inIsr := true }) hses hex
      exact ⟨fun h => Instr.noConfusion (honly h), fun h => absurd h hses⟩

/-- Settles O49: the cases of `step_reception`; the dispatch of an event is `dispatch_receiving`. -/
theorem receptionHoldsTheBytesReadSinceFrameStart : Obligations.ReceptionHoldsTheBytesReadSinceFrameStart := by
  intro s t raw _ hrec h
  rcases step_reception h with hidle | ⟨hb, i, u, htake, hex⟩ | ⟨hdisp, hbuf, hcur, hses, hnot⟩
  · exact ⟨fun ht => Session.noConfusion (hidle.symm.trans ht), fun _ ht => Session.noConfusion (hidle.symm.trans ht)⟩
  · exact dispatch_receiving hrec hb htake hex
  · rw [State.rawAfter_of_not_dispatch raw hdisp]
    exact ⟨fun ht => (hrec (hses ht)).congr ht hbuf hcur, fun hs ht => absurd ht (hnot hs)⟩

end Sys2Proof.Machine
end

section
/-! A listing of radio events (spec/30_encoding.md R79, 42_frame.md R117, R128): each event is dispatched before the next
arrives. -/

namespace Sys2Proof.Machine

/-! ### One event -/

/-- The state in which the handler of `i` starts, where the event arrives at a block at rest. -/
def State.received (s : State) : Instr → State
  | .evByte b => { s.quiet with pendData := some b, inIsr := true }
  | _ => { s.quiet with inIsr := true }

/-- In the block's turn the step runs the handler of the event taken. -/
theorem step_of_takeEvent {s u : State} {i : Instr} (hb : s.blockTurn = true) (h : s.onTurn.takeEvent = some (i, u)) :
    step s = exec i u := by
  have hisr : s.onTurn.inIsr = false := by
    rw [State.blockTurn, Bool.and_eq_true, Bool.not_eq_true'] at hb
    exact hb.1
  rw [step, State.select_of_blockTurn hb, State.selectBlock, hisr, h]
  rfl

/-- An event offered to a block at rest arrives in the first step. -/
theorem step_offer_event {s : State} (hr : s.atRest = true) (w : BitVec 10) :
    step (s.offer (.event w)) = .next (s.quiet.arrive w) := by
  rw [State.atRest_eq, Bool.and_eq_true, State.undisturbed_iff] at hr
  obtain ⟨-, -, -, ht, -⟩ := hr
  have hturns : (s.offer (.event w)).env.turns = [.event w] := congrArg (· ++ [Turn.event w]) ht
  have hquiet : (s.offer (.event w)).quiet.takeTurn = s.quiet := by
    have henv : { s.env with turns := (s.env.turns ++ [Turn.event w]).tail } = s.env := by
      rw [ht, List.nil_append, List.tail_cons, ← ht]
    exact congrArg (fun e => { s.quiet with env := e }) henv
  simp only [step, State.select, hturns, hquiet]

/-- It is then the event that the block takes. -/
theorem takeEvent_arrive {s : State} {i : Instr} {w : BitVec 10} (hr : s.atRest = true) (hi : encode i = .event w) :
    (s.quiet.arrive w).blockTurn = true ∧ (s.quiet.arrive w).onTurn.takeEvent = some (i, s.received i) := by
  have hd : decodeEvent w = .ok i := (congrArg decode hi).symm.trans (decode_encode i)
  rw [State.atRest_eq, Bool.and_eq_true, State.undisturbed_iff] at hr
  obtain ⟨-, hisr, hp, ht, -⟩ := hr
  simp only [State.noPending, Bool.and_eq_true, Bool.not_eq_true'] at hp
  obtain ⟨⟨hovf, hsfd⟩, hbyte⟩ := hp
  have henv : { s.env with turns := [] } = s.env := by rw [← ht]
  cases i with
  | evSfd => simp [State.arrive, State.blockTurn, State.takeEvent, State.onTurn, State.received, *]
  | evByte b =>
    simp [State.arrive, State.blockTurn, State.takeEvent, State.onTurn, State.received, State.rxData, *]
  | evOvf => simp [State.arrive, State.blockTurn, State.takeEvent, State.onTurn, State.received, *]
  | _ => cases hi

/-- So two steps run its handler. -/
theorem settle_event {s t : State} {i : Instr} {w : BitVec 10} (hr : s.atRest = true) (hi : encode i = .event w)
    (hex : exec i (s.received i) = .next t) : settle 2 (s.offer (encode i)) = .next t := by
  obtain ⟨hb, htake⟩ := takeEvent_arrive hr hi
  have hoffered : (s.offer (.event w)).atRest = false := by simp [State.atRest, State.offer]
  have harrived : (s.quiet.arrive w).atRest = false := by
    have hp : ¬ (s.quiet.arrive w).noPending = true := fun hp => by
      rw [(State.onTurn_takeEvent_none _).2 hp] at htake
      cases htake
    simp [State.atRest, hp]
  rw [hi, settle_succ 1 hoffered (step_offer_event hr w), settle_succ 0 harrived ((step_of_takeEvent hb htake).trans hex)]
  rfl

theorem runListing_cons {fuel : Nat} {i : Instr} {rest : List Instr} {s t : State}
    (h : settle fuel (s.offer (encode i)) = .next t) : runListing fuel (i :: rest) s = runListing fuel rest t := by
  rw [runListing, h]

theorem runListing_append {fuel : Nat} {ops rest : List Instr} {s t : State} (h : runListing fuel ops s = .next t) :
    runListing fuel (ops ++ rest) s = runListing fuel rest t := by
  induction ops generalizing s with
  | nil =>
    cases h
    rfl
  | cons i ops ih =>
    rw [runListing] at h
    cases hs : settle fuel (s.offer (encode i)) with
    | next u =>
      rw [hs] at h
      exact (runListing_cons hs).trans (ih h)
    | fault r => rw [hs] at h; cases h
    | refused r => rw [hs] at h; cases h

/-- A handler ends at rest where it leaves the sequencer, the latches and what is to come. -/
theorem State.atRest_of_handler {s t : State} (hr : s.atRest = true) (hisr : t.inIsr = false)
    (h : (t.mseq, t.noPending, t.env.turns, t.env.cmds) = (s.mseq, s.noPending, s.env.turns, s.env.cmds)) :
    t.atRest = true := by
  simp only [Prod.mk.injEq] at h
  obtain ⟨hmseq, hp, ht, hc⟩ := h
  rw [State.atRest_eq, Bool.and_eq_true, State.undisturbed_iff] at hr ⊢
  obtain ⟨hb, -, hrest⟩ := hr
  rw [hmseq, hp, ht, hc]
  exact ⟨hb, hisr, hrest⟩

/-! ### Bytes outside a reception -/

/-- Settles O48: each byte is dropped, and the block is at rest again. -/
theorem furtherBytesChangeNothing : Obligations.FurtherBytesChangeNothing := by
  intro s extra
  induction extra generalizing s with
  | nil => exact fun hr _ => ⟨s, rfl, rfl, rfl, rfl, rfl, rfl, hr⟩
  | cons b extra ih =>
    intro hr hrec
    have hs := settle_event hr rfl (exec_evByte_of_not_receiving (s := s.received (.evByte b)) b hrec)
    obtain ⟨t, ht, hend⟩ := ih { s.received (.evByte b) with inIsr := false } (State.atRest_of_handler hr rfl rfl) hrec
    exact ⟨t, (runListing_cons hs).trans ht, hend⟩

/-! ### A whole frame -/

/-- From `s` a frame-start and the bytes `raw`, fewer than a frame, have led to `u`. -/
structure Assembling (s : State) (raw : List Byte) (u : State) : Prop where
  atRest : u.atRest = true
  reception : u.Receiving raw
  frameReady : u.frameReady = s.frameReady
  error : u.error = s.error
  env : u.env = s.env
  cfg : u.cfg = s.cfg

theorem Assembling.start {s : State} (hr : s.atRest = true) :
    ∃ u, settle 2 (s.offer (encode .evSfd)) = .next u ∧ Assembling s [] u :=
  ⟨_, settle_event hr rfl (frameStartRestartsTheReception _), State.atRest_of_handler hr rfl rfl,
    State.receiving_nil rfl rfl, rfl, rfl, rfl, rfl⟩

theorem State.Receiving.received {u : State} {raw : List Byte} (h : u.Receiving raw) (i : Instr) :
    (u.received i).Receiving raw := by
  cases i <;> exact h.congr h.session_eq rfl rfl

/-- The byte handler after an arrival at a block at rest draws nothing from the data port. -/
theorem State.withByte_received (u : State) (b : Byte) : (u.received (.evByte b)).withByte b = { u with
    buf := ((u.received (.evByte b)).withByte b).buf, cursor := u.cursor + 1
    out := { Outputs.quiet with rxRd := true }, pendData := some b, inIsr := true } := by
  rw [State.withByte_eq]
  rfl

theorem Assembling.byte {s u : State} {raw : List Byte} (h : Assembling s raw u) (b : Byte)
    (hlt : raw.length < frameLen - 2) :
    ∃ v, settle 2 (u.offer (encode (.evByte b))) = .next v ∧ Assembling s (raw ++ [b]) v := by
  obtain ⟨hr, hrec, hready, herror, henv, hcfg⟩ := h
  have hstart := hrec.received (.evByte b)
  have hex := exec_evByte_of_lt b hstart.session_eq (hstart.cursor_eq ▸ hlt)
  have hstored := hstart.stored b hlt
  refine ⟨_, settle_event hr rfl hex, ?_, hstored, ?_, ?_, ?_, ?_⟩
  all_goals rw [State.withByte_received]
  · exact State.atRest_of_handler hr rfl rfl
  · exact hready
  · exact herror
  · exact henv
  · exact hcfg

theorem Assembling.bytes {s u : State} {raw : List Byte} (h : Assembling s raw u) (bytes : List Byte)
    (hlen : raw.length + bytes.length ≤ frameLen - 2) :
    ∃ v, runListing 2 (bytes.map .evByte) u = .next v ∧ Assembling s (raw ++ bytes) v := by
  induction bytes generalizing raw u with
  | nil => exact ⟨u, rfl, (List.append_nil raw).symm ▸ h⟩
  | cons b bytes ih =>
    rw [List.length_cons] at hlen
    obtain ⟨v, hv, hbyte⟩ := h.byte b (by omega)
    obtain ⟨t, ht, hbytes⟩ := ih hbyte (by rw [List.length_append, List.length_singleton]; omega)
    rw [List.append_assoc, List.singleton_append] at hbytes
    exact ⟨t, (runListing_cons hv).trans ht, hbytes⟩

/-- R128 before the last byte. -/
theorem Assembling.frame {s : State} (hr : s.atRest = true) (bytes : List Byte) (hlen : bytes.length ≤ frameLen - 2) :
    ∃ u, runListing 2 (frameOps bytes) s = .next u ∧ Assembling s bytes u := by
  obtain ⟨u, hu, hstart⟩ := Assembling.start hr
  obtain ⟨v, hv, hbytes⟩ := hstart.bytes bytes (by rw [List.length_nil]; omega)
  exact ⟨v, (runListing_cons hu).trans hv, hbytes⟩

/-- R128: the last byte. -/
theorem Assembling.complete {s u : State} {raw : List Byte} {rssi : Byte} (hraw : raw.length = dataBytes)
    (h : Assembling s (raw ++ [rssi]) u) (lqi : Byte) : ∃ t, settle 2 (u.offer (encode (.evByte lqi))) = .next t ∧
      t.bufHolds (frameImage raw rssi lqi (s.env.pollIsr .idle s.cfg.pollMaxIsr).foe) ∧
      t.session = .frameReady ∧ t.frameReady = true ∧ t.cursor = 10 ∧ t.error = s.error ∧ t.atRest = true := by
  obtain ⟨hr, hrec, -, herror, henv, hcfg⟩ := h
  have hstart := hrec.received (.evByte lqi)
  have hlast : (u.received (.evByte lqi)).cursor.toNat = frameLen - 2 := by
    rw [hstart.cursor_eq, List.length_append, hraw]
    rfl
  have himage := hstart.complete_withByte (lqi := lqi) hraw (List.append_assoc raw [rssi] [lqi])
  have hpoll : ((u.env.pollIsr .idle u.cfg.pollMaxIsr).turns, (u.env.pollIsr .idle u.cfg.pollMaxIsr).cmds) =
      (u.env.turns, u.env.cmds) := by rw [Env.pollIsr_frame]
  refine ⟨_, settle_event hr rfl (exec_evByte_of_last lqi hstart.session_eq hlast), ?_, rfl, rfl, ?_, ?_, ?_⟩
  · rw [← henv, ← hcfg]
    exact himage.congr (State.returnFromEvent_buf _)
  all_goals rw [State.complete_withByte_eq]
  · exact State.cursor_succ_of_last hlast
  · exact herror
  · exact State.atRest_of_handler hr rfl (congrArg (fun p => (u.mseq, u.noPending, p)) hpoll)

/-- Settles O47: nine bytes are `Assembling.frame` and the tenth is `Assembling.complete`; every shorter prefix is `Assembling.frame`
or empty. -/
theorem frameIsAssembledCompletely : Obligations.FrameIsAssembledCompletely := by
  intro s raw rssi lqi hr hraw
  refine ⟨?_, fun n hn => ?_⟩
  · obtain ⟨u, hu, hnine⟩ := Assembling.frame hr (raw ++ [rssi]) (by rw [List.length_append, hraw]; exact Nat.le_refl _)
    obtain ⟨t, ht, hend⟩ := hnine.complete hraw lqi
    have hops : frameOps (raw ++ [rssi, lqi]) = frameOps (raw ++ [rssi]) ++ [.evByte lqi] := by simp [frameOps]
    refine ⟨t, ?_, hend⟩
    rw [hops, runListing_append hu, runListing_cons ht]
    rfl
  · cases n with
    | zero => exact ⟨s, rfl, rfl⟩
    | succ n =>
      have hops : (frameOps (raw ++ [rssi, lqi])).take (n + 1) = frameOps ((raw ++ [rssi, lqi]).take n) := by
        simp [frameOps, List.map_take]
      obtain ⟨u, hu, hsome⟩ := Assembling.frame hr ((raw ++ [rssi, lqi]).take n) (by
        rw [List.length_take]
        exact (Nat.min_le_left _ _).trans (Nat.le_of_succ_le_succ hn))
      rw [hops]
      exact ⟨u, hu, hsome.frameReady⟩

end Sys2Proof.Machine
end

section
/-! The consumer's commands (spec/42_frame.md R118 to R120) and the bit reversal (R107, R108). -/

namespace Sys2Proof.Machine

/-- Settles O55: the command answers at once. -/
theorem clrrdyClearsTheFlag : Obligations.ClrrdyClearsTheFlag := by
  intro s hb
  rw [exec_clrrdy, State.runMicro_ready hb rfl]
  rfl

/-- Settles O56: the read answers at once, and what is listed is what is read. -/
theorem rdbufAnswersTheStoredByte : Obligations.RdbufAnswersTheStoredByte := by
  intro s i hb hi
  refine ⟨_, (exec_rdbuf s i).trans (State.runMicro_finish hb (checkIndex_eq_none_iff.2 (Nat.lt_succ_of_le hi)) rfl), rfl,
    fun b hget => ?_⟩
  have hread : (s.accept (cmdWord 0x09 i 0) .only).bufRead i.toNat = b := State.bufRead_of_get? hget
  change (((s.accept (cmdWord 0x09 i 0) .only).bufRead i.toNat).setWidth 32).toNat = b.toNat
  rw [hread, BitVec.toNat_setWidth_of_le (by decide)]

/-! ### The status word -/

section
variable (s : State)

theorem State.status_session : s.status.extractLsb' 0 3 = s.session.code := extract_low _ _

/-- R27, bit by bit. -/
theorem State.status_getLsbD (i : Nat) : s.status.getLsbD i =
    if i < 3 then s.session.code.getLsbD i
    else if i < 4 then s.frameReady
    else if i < 5 then s.error
    else if i < 8 then false
    else if i < 12 then s.cursor.getLsbD (i - 8)
    else false := by
  change (0#20 ++ s.cursor ++ 0#3 ++ BitVec.ofBool s.error ++ BitVec.ofBool s.frameReady ++ s.session.code :
    BitVec (20 + 4 + 3 + 1 + 1 + 3)).getLsbD i = _
  simp only [BitVec.getLsbD_append, BitVec.getLsbD_ofBool, BitVec.getLsbD_zero]
  grind

theorem State.status_cursor : s.status.extractLsb' 8 4 = s.cursor := by
  apply BitVec.eq_of_getLsbD_eq
  intro i hi
  rw [BitVec.getLsbD_extractLsb', State.status_getLsbD]
  grind

theorem State.status_zero_low : s.status.extractLsb' 5 3 = 0#3 := by
  apply BitVec.eq_of_getLsbD_eq
  intro i hi
  rw [BitVec.getLsbD_extractLsb', State.status_getLsbD, BitVec.getLsbD_zero]
  grind

theorem State.status_zero_high : s.status.extractLsb' 12 20 = 0#20 := by
  apply BitVec.eq_of_getLsbD_eq
  intro i hi
  rw [BitVec.getLsbD_extractLsb', State.status_getLsbD, BitVec.getLsbD_zero]
  grind

end

/-- Settles O57: the read answers at once with the status word, whose fields are given above. -/
theorem rdstatAnswersTheStatusWord : Obligations.RdstatAnswersTheStatusWord := fun s hb =>
  ⟨_, (exec_rdstat s).trans (State.runMicro_finish (v := s.status) hb rfl rfl), rfl,
    s.status_session.trans (by cases s.session <;> rfl), s.status_getLsbD 3, s.status_getLsbD 4, s.status_zero_low,
    s.status_cursor, s.status_zero_high⟩

/-! ### rev8 -/

/-- R107: the masked swaps reverse the bits. -/
theorem rev8_getLsbD (b : Byte) {i : Nat} (hi : i < 8) : (rev8 b).getLsbD i = b.getLsbD (7 - i) := by
  interval_cases i <;> simp [rev8, swapBits, swapPairs, swapNibbles]

theorem rev8_rev8 (b : Byte) : rev8 (rev8 b) = b := by
  apply BitVec.eq_of_getLsbD_eq
  intro i hi
  rw [rev8_getLsbD _ hi, rev8_getLsbD _ (by omega), show 7 - (7 - i) = i by omega]

theorem rev8_eq_self_iff (b : Byte) : rev8 b = b ↔ b ∈ ([0x00, 0x18, 0x24, 0x3C, 0x42, 0x5A, 0x66, 0x7E,
    0x81, 0x99, 0xA5, 0xBD, 0xC3, 0xDB, 0xE7, 0xFF] : List Byte) := by
  revert b
  decide

/-- Settles O40: the reversal of each bit, from which the involution follows; an involution is a bijection. -/
theorem revEightReversesTheBits : Obligations.RevEightReversesTheBits :=
  ⟨fun _ => rfl, Function.Involutive.bijective rev8_rev8, fun b _ hi => rev8_getLsbD b hi, rev8_rev8, rev8_eq_self_iff⟩

end Sys2Proof.Machine
end

section
/-! The CRC of a byte (spec/43_crc.md R130, R134), whose shifts are injective because the polynomial is odd, and the commands
that run it (R131 to R133). -/

namespace Sys2Proof.Machine

/-! ### One shift -/

theorem crcShift_eq_xor (c : Word16) : crcShift c = (c <<< 1) ^^^ (if c.msb then crcPoly else 0) := by
  unfold crcShift
  split
  · rfl
  · exact (BitVec.xor_zero).symm

/-- The low bit of the polynomial shows whether it entered. -/
theorem crcShift_getLsbD_zero (c : Word16) : (crcShift c).getLsbD 0 = c.msb := by
  rw [crcShift_eq_xor]
  cases c.msb <;> simp

/-- A shift to the left loses the top bit only. -/
theorem eq_of_shiftLeft_one {c d : Word16} (hmsb : c.msb = d.msb) (h : c <<< 1 = d <<< 1) : c = d := by
  apply BitVec.eq_of_getLsbD_eq
  intro i hi
  by_cases htop : i = 15
  · simpa only [BitVec.msb_eq_getLsbD_last, htop] using hmsb
  · have hbit := congrArg (BitVec.getLsbD · (i + 1)) h
    simpa [hi, show i + 1 < 16 by omega] using hbit

theorem crcShift_injective : Function.Injective crcShift := by
  intro c d h
  have hmsb : c.msb = d.msb := by rw [← crcShift_getLsbD_zero, ← crcShift_getLsbD_zero, h]
  rw [crcShift_eq_xor, crcShift_eq_xor, hmsb, BitVec.xor_left_inj] at h
  exact eq_of_shiftLeft_one hmsb h

theorem crcShifts_eq_iterate (n : Nat) : crcShifts n = crcShift^[n] := by
  induction n with
  | zero => rfl
  | succ n ih =>
    rw [Function.iterate_succ, ← ih]
    rfl

/-! ### One byte -/

theorem crcShifts_injective (n : Nat) : Function.Injective (crcShifts n) :=
  crcShifts_eq_iterate n ▸ crcShift_injective.iterate n

/-- The byte enters the upper half. -/
theorem setWidth_shiftLeft_eight (b : Byte) : b.setWidth 16 <<< 8 = (b ++ (0 : Byte) : Word16) := by
  apply BitVec.eq_of_getLsbD_eq
  intro i hi
  rw [BitVec.getLsbD_append]
  by_cases hlow : i < 8
  · simp [hlow]
  · simp [hlow, hi]

theorem crcByte_injective_left (b : Byte) : Function.Injective (crcByte · b) :=
  fun _ _ h => (BitVec.xor_left_inj _).1 (crcShifts_injective 8 h)

theorem crcByte_injective_right (c : Word16) : Function.Injective (crcByte c) := by
  intro b b' h
  have hent : b.setWidth 16 <<< 8 = b'.setWidth 16 <<< 8 := (BitVec.xor_right_inj c).1 (crcShifts_injective 8 h)
  rw [setWidth_shiftLeft_eight, setWidth_shiftLeft_eight] at hent
  have hhigh := congrArg (BitVec.extractLsb' 8 8) hent
  rwa [extract_high, extract_high] at hhigh

theorem foldl_crcByte_injective (bytes : List Byte) : Function.Injective (bytes.foldl crcByte) := by
  induction bytes with
  | nil => exact fun _ _ h => h
  | cons b bytes ih => exact ih.comp (crcByte_injective_left b)

/-- Settles O60: the changed byte enters different values into the bytes after it, which keep them apart. -/
theorem oneChangedByteChangesTheChecksum : Obligations.OneChangedByteChangesTheChecksum := by
  refine ⟨fun before after b b' hne heq => ?_, fun b => Finite.injective_iff_bijective.1 (crcByte_injective_left b),
    by decide +kernel, by decide +kernel⟩
  rw [crc16, crc16, List.foldl_append, List.foldl_append] at heq
  exact hne (crcByte_injective_right _ (foldl_crcByte_injective after heq))

/-! ### The commands -/

theorem setWidth_word16 (c : Word16) : c.setWidth 32 = (0#16 ++ c : Word32) :=
  BitVec.setWidth_eq_append (by decide)

/-- Settles O58: each command answers at once; bit 15 is the top bit, and the eight shifts are the iterated shift. -/
theorem crcCommandsClearUpdateAndRead : Obligations.CrcCommandsClearUpdateAndRead := by
  refine ⟨fun s b hb => ⟨?_, ?_, ?_⟩, fun c b => ?_⟩
  · rw [exec_crcclr, State.runMicro_ready hb rfl]
    rfl
  · have hword : (0 : Word24) ++ b = b.setWidth 32 := (BitVec.setWidth_eq_append (by decide)).symm
    rw [exec_crcupd, State.runMicro_ready hb rfl, setWidth_word16, hword]
    rfl
  · exact (exec_crcrd s).trans (State.runMicro_finish hb rfl (setWidth_word16 s.crc))
  · rw [crcByte, crcShifts_eq_iterate, setWidth_shiftLeft_eight]
    rfl

end Sys2Proof.Machine
end

section
/-! A listing of CRC commands (spec/30_encoding.md R79, 43_crc.md R136): each line leaves the block at rest and answers the
accumulator. -/

namespace Sys2Proof.Machine

/-- From `s` CRC commands have led to `t`, which holds `c` in the accumulator and has answered it. -/
structure Checksummed (s : State) (c : Word16) (t : State) : Prop where
  atRest : t.atRest = true
  rsp : t.rsp = c.setWidth 32
  rest : t = { s with crc := c, rsp := t.rsp, out := t.out, mseq := t.mseq }

theorem Checksummed.trans {s t u : State} {c d : Word16} (h : Checksummed s c t) (h' : Checksummed t d u) :
    Checksummed s d u where
  atRest := h'.atRest
  rsp := h'.rsp
  rest := by rw [h'.rest, h.rest]

theorem Checksummed.crc {s t : State} {c : Word16} (h : Checksummed s c t) : t.crc = c := by
  rw [h.rest]

/-- A line of one micro-step that sets the accumulator and answers it. -/
theorem Checksummed.of_line {s : State} {i : Instr} {w : BitVec 48} {c : Word16} (hi : encode i = .command w)
    (hr : s.atRest = true) (hwf : i.wellFormed s.cfg = true)
    (hm : i.micro (s.quiet.accept w (i.firstMicro s.cfg)) =
      ((s.quiet.accept w (i.firstMicro s.cfg)).setCrc c).finish (c.setWidth 32)) :
    ∃ t, settle 1 (s.offer (encode i)) = .next t ∧ Checksummed s c t := by
  have hoffered : (s.offer (encode i)).atRest = false := by simp [State.atRest, State.offer, hi]
  have hrest := hr
  rw [State.atRest_eq, Bool.and_eq_true] at hrest
  obtain ⟨-, hund⟩ := hrest
  refine ⟨_, settle_succ 0 hoffered ((step_offer hi hr hwf).trans (congrArg _ hm)), ?_, rfl, rfl⟩
  exact (State.atRest_eq _).trans hund

theorem Checksummed.crcclr {s : State} (hr : s.atRest = true) :
    ∃ t, settle 1 (s.offer (encode .crcclr)) = .next t ∧ Checksummed s crcInit t :=
  Checksummed.of_line rfl hr rfl rfl

theorem Checksummed.crcupd {s t : State} {c : Word16} (h : Checksummed s c t) (b : Byte) :
    ∃ u, settle 1 (t.offer (encode (.crcupd b))) = .next u ∧ Checksummed s (crcByte c b) u := by
  obtain ⟨u, hu, hline⟩ := Checksummed.of_line (i := .crcupd b) (c := crcByte t.crc b) rfl h.atRest rfl rfl
  exact ⟨u, hu, h.crc ▸ h.trans hline⟩

theorem Checksummed.crcrd {s t : State} {c : Word16} (h : Checksummed s c t) :
    ∃ u, settle 1 (t.offer (encode .crcrd)) = .next u ∧ Checksummed s c u := by
  obtain ⟨u, hu, hline⟩ := Checksummed.of_line (i := .crcrd) (c := t.crc) rfl h.atRest rfl rfl
  exact ⟨u, hu, h.crc ▸ h.trans hline⟩

theorem Checksummed.bytes {s t : State} {c : Word16} (h : Checksummed s c t) (bytes : List Byte) :
    ∃ u, runListing 1 (bytes.map .crcupd) t = .next u ∧ Checksummed s (bytes.foldl crcByte c) u := by
  induction bytes generalizing t c with
  | nil => exact ⟨t, rfl, h⟩
  | cons b bytes ih =>
    obtain ⟨v, hv, hbyte⟩ := h.crcupd b
    obtain ⟨u, hu, hbytes⟩ := ih hbyte
    exact ⟨u, (runListing_cons hv).trans hu, hbytes⟩

/-- Settles O59: the accumulator is cleared, takes the bytes in order, and is read. -/
theorem crcListingComputesTheChecksum : Obligations.CrcListingComputesTheChecksum := by
  refine ⟨fun s bytes hr => ?_, rfl, fun bytes b => List.foldl_concat _ _ _ _⟩
  obtain ⟨t, ht, hclear⟩ := Checksummed.crcclr hr
  obtain ⟨u, hu, hbytes⟩ := hclear.bytes bytes
  obtain ⟨v, hv, hread⟩ := hbytes.crcrd
  refine ⟨v, ?_, ?_, hread.rest, hread.atRest⟩
  · rw [crc16Ops, runListing_cons ht, runListing_append hu, runListing_cons hv]
    rfl
  · rw [hread.rsp, BitVec.toNat_setWidth_of_le (by decide)]
    rfl

end Sys2Proof.Machine
end

section
/-! What the handlers read (spec/43_crc.md R135, 60_exceptions.md R148): nothing that belongs to the main context. -/

namespace Sys2Proof.Machine

/-- `s` with the main context's items (`CRC`, `RSP`, `SYN*`, `tab`, `mseq`) of `m`. -/
def State.withMain (s m : State) : State :=
  { s with crc := m.crc, rsp := m.rsp, syn2 := m.syn2, syn1 := m.syn1, syn0 := m.syn0, tab := m.tab, mseq := m.mseq }

section
variable (s m : State)

@[simp] theorem State.withMain_cursor : (s.withMain m).cursor = s.cursor := rfl

@[simp] theorem State.withMain_storesByte : (s.withMain m).storesByte = s.storesByte := rfl

@[simp] theorem State.withMain_completes : (s.withMain m).completes = s.completes := rfl

theorem State.appendByte_withMain (b : Byte) : (s.withMain m).appendByte b = (s.appendByte b).withMain m := by
  unfold State.appendByte
  rw [State.withMain_cursor]
  dsimp only
  split <;> rfl

theorem State.withByte_withMain (b : Byte) : (s.withMain m).withByte b = (s.withByte b).withMain m :=
  congrArg (fun t : State => { t with cursor := s.cursor + 1 }) (State.appendByte_withMain s.rxRead m b)

end

/-- Each handler does the same whatever the main context holds, and leaves it as it is. -/
theorem exec_event_withMain {i : Instr} {s t : State} (m : State) (hi : i.isEvent = true) (h : exec i s = .next t) :
    exec i (s.withMain m) = .next (t.withMain m) := by
  cases i with
  | evSfd =>
    cases h
    rfl
  | evByte b =>
    rw [exec_evByte_eq] at h ⊢
    cases h
    rw [State.withByte_withMain, State.withMain_storesByte, State.withMain_completes]
    split_ifs <;> rfl
  | evOvf =>
    cases h
    rfl
  | _ => exact Bool.noConfusion hi

/-- Settles O51: the new contents are the main context of some state. -/
theorem handlersDoNotReadTheMainContext : Obligations.HandlersDoNotReadTheMainContext :=
  fun _ s _ c r a2 a1 a0 tb m hi h =>
    exec_event_withMain { s with crc := c, rsp := r, syn2 := a2, syn1 := a1, syn0 := a0, tab := tb, mseq := m } hi h

end Sys2Proof.Machine
end

section
/-! The two kinds of operation (spec/30_encoding.md R77): an event has a word of the event port, a command one of the command
port. -/

namespace Sys2Proof

theorem encode_of_isEvent {i : Instr} (h : i.isEvent = true) : ∃ w, encode i = .event w := by
  cases hw : encode i with
  | event w => exact ⟨w, rfl⟩
  | command w => cases i <;> cases hw <;> cases h

theorem encode_of_not_isEvent {i : Instr} (h : i.isEvent = false) : ∃ w, encode i = .command w := by
  cases hw : encode i with
  | command w => exact ⟨w, rfl⟩
  | event w => cases i <;> cases hw <;> cases h

end Sys2Proof
end

section
/-! What a handler can write (spec/60_exceptions.md R148, 10_state.md R35), and how an event gets to it (R143, R145, R146). -/

namespace Sys2Proof.Machine

/-- Everything a handler can write: the draws it takes, the strobe and `rx_rd`, and the items of the reception. -/
theorem exec_event_eq_frame {i : Instr} {s t : State} (hi : i.isEvent = true) (h : exec i s = .next t) : t = { s with
    env := t.env
    out := { s.out with strobe := t.out.strobe, rxRd := t.out.rxRd }
    session := t.session, frameReady := t.frameReady, error := t.error, cursor := t.cursor, buf := t.buf
    inIsr := false } := by
  cases i with
  | evSfd =>
    cases h
    rfl
  | evByte b =>
    rcases exec_evByte_cases h with ⟨-, rfl⟩ | ⟨-, -, rfl⟩ | ⟨-, -, rfl⟩
    · rfl
    · rw [State.appendByte_eq]
      rfl
    · rw [State.complete_eq, State.appendByte_eq]
      rfl
  | evOvf =>
    cases h
    rfl
  | _ => exact Bool.noConfusion hi

/-- R148: a handler answers, and no handler runs when it has. -/
theorem exec_event_returns {i : Instr} (hi : i.isEvent = true) (s : State) :
    ∃ t, exec i s = .next t ∧ t.inIsr = false := by
  obtain ⟨w, hw⟩ := encode_of_isEvent hi
  obtain ⟨t, h⟩ := exec_event_next hw s
  exact ⟨t, h, congrArg State.inIsr (exec_event_eq_frame hi h)⟩

/-- A handler raises flags and clears none. -/
theorem exec_event_flags {i : Instr} {s t : State} (hi : i.isEvent = true) (h : exec i s = .next t) :
    (s.frameReady = true → t.frameReady = true) ∧ (s.error = true → t.error = true) := by
  rcases exec_flags h with hf | ⟨-, -, -, hf⟩ | ⟨-, -, hf⟩ | ⟨rfl, -⟩ | ⟨⟨hz, rfl⟩, -⟩
  · obtain ⟨hready, herror⟩ := Prod.mk.inj hf
    exact ⟨hready.trans, herror.trans⟩
  · obtain ⟨hready, herror⟩ := Prod.mk.inj hf
    exact ⟨fun _ => hready, herror.trans⟩
  · obtain ⟨hready, herror⟩ := Prod.mk.inj hf
    exact ⟨hready.trans, fun _ => herror⟩
  · cases hi
  · cases hi

/-- Settles O50: the items of the main context are outside the frame of a handler, and `exec_event_flags`. -/
theorem handlersLeaveTheMainContextAlone : Obligations.HandlersLeaveTheMainContextAlone := by
  intro i s hi
  obtain ⟨t, h, -⟩ := exec_event_returns hi s
  obtain ⟨hready, herror⟩ := exec_event_flags hi h
  refine ⟨t, h, ?_⟩
  rw [exec_event_eq_frame hi h]
  exact ⟨rfl, rfl, rfl, rfl, rfl, rfl, rfl, rfl, rfl, rfl, rfl, rfl, rfl, hready, herror, rfl, rfl, rfl⟩

/-! ### Dispatch and arrival -/

/-- R145: with an event pending, some event is taken. -/
theorem State.takeEvent_of_pending {s : State} (hp : s.noPending = false) : ∃ i u, s.takeEvent = some (i, u) := by
  cases h : s.takeEvent with
  | none => exact absurd ((s.takeEvent_none).1 h) (ne_true_of_eq_false hp)
  | some p => exact ⟨p.1, p.2, rfl⟩

theorem isEvent_of_takeEvent {s u : State} {i : Instr} (h : s.takeEvent = some (i, u)) : i.isEvent = true := by
  rcases State.takeEvent_cases h with ⟨-, rfl, -⟩ | ⟨-, -, rfl, -⟩ | ⟨-, -, -, rfl, -⟩ <;> rfl

/-- Settles O5: the step runs the handler of the event taken, which is that of highest priority. -/
theorem stepDispatchesTheHighestPendingEvent : Obligations.StepDispatchesTheHighestPendingEvent := by
  intro s hb hp
  obtain ⟨i, u, htake⟩ := State.takeEvent_of_pending (s := s.onTurn) hp
  rw [step_of_takeEvent hb htake]
  refine ⟨exec_event_returns (isEvent_of_takeEvent htake) u, ?_⟩
  rcases State.takeEvent_cases htake with ⟨hovf, rfl, rfl⟩ | ⟨hovf, hsfd, rfl, rfl⟩ | ⟨hovf, hsfd, -, rfl, rfl⟩
  · exact (if_pos hovf).symm
  · exact ((if_neg (ne_true_of_eq_false hovf)).trans (if_pos hsfd)).symm
  · exact ((if_neg (ne_true_of_eq_false hovf)).trans (if_neg (ne_true_of_eq_false hsfd))).symm

theorem step_of_event_turn {s : State} {w : BitVec 10} {rest : List Turn} (h : s.env.turns = .event w :: rest) :
    step s = .next (s.onTurn.arrive w) := by
  rw [step, State.select, h]
  rfl

/-- Settles O6: the kind of the word is all that its arrival looks at, besides a byte event's data. -/
theorem arrivalLatchesTheEvent : Obligations.ArrivalLatchesTheEvent := by
  intro s w rest hturn
  rw [step_of_event_turn hturn, State.arrive, decodeEvent]
  refine ⟨fun hk => ?_, fun hk => ?_, fun hk => ?_, fun hk => ?_⟩ <;> rw [hk] <;> rfl

end Sys2Proof.Machine
end

section
/-! What a command leaves to the handlers, the radio and the host (spec/60_exceptions.md R152, R154, 10_state.md R29, R30): it
writes none of their items, but that `IfClr()` clears the latches. -/

namespace Sys2Proof.Machine

/-- The items besides the reception's (`State.frameStore`) that no micro-step sets, and the words on the command port. -/
def State.uncommanded (s : State) : Bool × Nat × Bool × List (BitVec 48) × Bool × Bool × Bool :=
  (s.inIsr, s.epoch, s.out.rxRd, s.env.cmds, s.pendSfd, s.pendByte, s.pendOvf)

/-- Between `s` and `t` these items stay, or the latches are cleared. -/
def KeepsOrClears (s t : State) : Prop :=
  t.uncommanded = s.uncommanded ∨ t.uncommanded = s.ifClr.uncommanded

theorem tuneMicro_uncommanded (hz : Word32) (s : State) : KeepsOrClears s (tuneMicro hz s) := by
  unfold tuneMicro
  cases s.mseq.step
  case t2Poll => exact .inl (State.waitPoll_unchanged _ rfl rfl fun _ => rfl)
  case t3 => exact .inr rfl
  case t4 => exact .inl (State.synWrite_goto_unchanged _ (fun _ => rfl) _)
  case t7Poll => exact .inl (State.waitPoll_unchanged _ rfl rfl fun _ => rfl)
  all_goals exact .inl rfl

theorem calMicro_uncommanded (ch : Byte) (hz : Word32) (s : State) :
    (calMicro ch hz s).uncommanded = s.uncommanded := by
  unfold calMicro
  cases s.mseq.step
  case c1 => exact State.synWrite_goto_unchanged _ (fun _ => rfl) _
  all_goals rfl

theorem tunechMicro_uncommanded (ch : Byte) (s : State) : (tunechMicro ch s).uncommanded = s.uncommanded := by
  unfold tunechMicro
  cases s.mseq.step <;> rfl

theorem sweepMicro_uncommanded (s : State) : (sweepMicro s).uncommanded = s.uncommanded := by
  unfold sweepMicro
  cases s.mseq.step
  case s2 =>
    dsimp only
    split <;> rfl
  all_goals rfl

theorem micro_uncommanded (i : Instr) (s : State) : KeepsOrClears s (i.micro s) := by
  cases i with
  | tune hz => exact tuneMicro_uncommanded hz s
  | cal ch hz => exact .inl (calMicro_uncommanded ch hz s)
  | tunech ch => exact .inl (tunechMicro_uncommanded ch s)
  | sweep => exact .inl (sweepMicro_uncommanded s)
  | _ => exact .inl rfl

theorem exec_command_uncommanded {i : Instr} {w : BitVec 48} {s t : State} (hi : encode i = .command w)
    (h : exec i s = .next t) : KeepsOrClears s t := by
  rcases exec_command_next hi h with ⟨-, rfl⟩ | ⟨-, -, rfl⟩ | ⟨-, -, rfl⟩
  · exact micro_uncommanded i (s.accept w (i.firstMicro s.cfg))
  · exact micro_uncommanded i s
  · exact .inl rfl

/-- A command clears flags and raises none. -/
theorem exec_command_flags_le {i : Instr} {w : BitVec 48} {s t : State} (hi : encode i = .command w)
    (h : exec i s = .next t) : (t.frameReady = true → s.frameReady = true) ∧ (t.error = true → s.error = true) := by
  rcases exec_command_flags hi h with hf | ⟨-, hf⟩ | ⟨-, -, hf⟩ <;> obtain ⟨hready, herror⟩ := Prod.mk.inj hf <;>
    rw [hready, herror]
  · exact ⟨id, id⟩
  · exact ⟨fun hset => Bool.noConfusion hset, id⟩
  · exact ⟨fun hset => Bool.noConfusion hset, fun hset => Bool.noConfusion hset⟩

/-- Settles O52: the reception's items, the flags, and the items and latches of `State.uncommanded`. -/
theorem commandsNeverWriteTheBuffer : Obligations.CommandsNeverWriteTheBuffer := by
  intro i s t hi h
  obtain ⟨w, hw⟩ := encode_of_not_isEvent hi
  obtain ⟨hstore, -⟩ := exec_command_reception hw h
  obtain ⟨hready, herror⟩ := exec_command_flags_le hw h
  have hkept := exec_command_uncommanded hw h
  simp only [State.frameStore, KeepsOrClears, State.uncommanded, Prod.mk.injEq] at hstore hkept
  obtain ⟨hbuf, hcursor, hdata⟩ := hstore
  rcases hkept with ⟨hisr, hepoch, hrx, -, hsfd, hbyte, hovf⟩ | ⟨hisr, hepoch, hrx, -, hsfd, hbyte, hovf⟩
  · exact ⟨hbuf, hcursor, hdata, hisr, hepoch, hready, herror, hsfd.symm.trans, hbyte.symm.trans, hovf.symm.trans, hrx⟩
  · refine ⟨hbuf, hcursor, hdata, hisr, hepoch, hready, herror, ?_, ?_, ?_, hrx⟩ <;> intro hset
    · cases hsfd.symm.trans hset
    · cases hbyte.symm.trans hset
    · cases hovf.symm.trans hset

end Sys2Proof.Machine
end

section
/-! Admitted words (spec/60_exceptions.md R137, R163): every step of a block that satisfies the invariant goes on, and the words
on the command port are taken from its head only. -/

namespace Sys2Proof.Machine

/-- The words on the command port. -/
def State.cmds (s : State) : List (BitVec 48) := s.env.cmds

theorem State.rxRead_cmds (s : State) : s.rxRead.cmds = s.cmds := by
  rw [State.rxRead_eq]
  by_cases hp : s.pendData = none <;> simp [State.cmds, hp, Env.afterRx]

theorem exec_event_cmds {i : Instr} {s t : State} (hi : i.isEvent = true) (h : exec i s = .next t) : t.cmds = s.cmds := by
  have hpoll : ∀ (m : RMode) (limit : Nat) (e : Env), (e.pollIsr m limit).cmds = e.cmds := fun m limit e => by
    rw [Env.pollIsr_frame]
  cases i with
  | evSfd =>
    cases h
    rfl
  | evByte b =>
    rcases exec_evByte_cases h with ⟨-, rfl⟩ | ⟨-, -, rfl⟩ | ⟨-, -, rfl⟩
    · rfl
    · rw [State.appendByte_eq]
      exact s.rxRead_cmds
    · rw [State.complete_eq, State.appendByte_eq]
      exact (hpoll _ _ _).trans s.rxRead_cmds
  | evOvf =>
    cases h
    exact hpoll _ _ _
  | _ => exact Bool.noConfusion hi

theorem exec_cmds {i : Instr} {s t : State} (h : exec i s = .next t) : t.cmds = s.cmds := by
  cases hi : i.isEvent with
  | true => exact exec_event_cmds hi h
  | false =>
    obtain ⟨w, hw⟩ := encode_of_not_isEvent hi
    have hkept := exec_command_uncommanded hw h
    simp only [KeepsOrClears, State.uncommanded, Prod.mk.injEq] at hkept
    rcases hkept with ⟨-, -, -, hcmds, -⟩ | ⟨-, -, -, hcmds, -⟩ <;> exact hcmds

/-- A step takes at most the first word off the command port. -/
theorem step_cmds {s t : State} (h : step s = .next t) : t.cmds = s.cmds ∨ t.cmds = s.cmds.tail := by
  rcases step_cases h with ⟨w, rest, -, rfl⟩ | ⟨rest, -, rfl⟩ | ⟨-, rfl⟩ | ⟨-, -, i, u, htake, hex⟩ |
    ⟨-, -, i, -, hex⟩ | ⟨-, -, -, rfl⟩ | ⟨-, -, -, rfl⟩ | ⟨-, -, w, rest, i, -, -, hex⟩
  · unfold State.arrive
    split <;> exact .inl rfl
  · exact .inl rfl
  · exact .inl rfl
  · rw [exec_cmds hex]
    rcases State.takeEvent_cases htake with ⟨-, -, rfl⟩ | ⟨-, -, -, rfl⟩ | ⟨-, -, -, -, rfl⟩ <;> exact .inl rfl
  · have hkept := exec_cmds hex
    exact .inl hkept
  · exact .inl rfl
  · exact .inl rfl
  · have hkept := exec_cmds hex
    exact .inr hkept

/-- R40: in a block that satisfies the invariant, the main context's turn takes the next micro-step of the command in
progress, which stands at one of its later micro-steps. -/
theorem State.Inv.step_going {s : State} (hs : s.Inv) (hm : s.mainTurn = true) (hb : s.mseq.busy = true) :
    ∃ i, encode i = .command s.mseq.word ∧ s.mseq.fits s.cfg i = true ∧ step s = .next (i.micro s.onTurn) := by
  have hok := hs.mseq hb
  cases hd : decodeCommand s.mseq.word with
  | error e => simp [Mseq.ok, hd] at hok
  | ok i =>
    have hi := encode_of_decodeCommand hd
    obtain ⟨-, hstep⟩ := stepRunsTheDecodedCommand
    refine ⟨i, hi, ((Mseq.ok_iff hd).1 hok).2, ?_⟩
    rw [hstep s i hm hb hd, exec_command_check hi]
    exact State.runMicro_going hb rfl

/-- R50: the main context's turn of a ready block accepts an admitted word and takes its first micro-step. -/
theorem step_accepts {s : State} {w : BitVec 48} {rest : List (BitVec 48)} {i : Instr} (hm : s.mainTurn = true)
    (hb : s.mseq.busy = false) (hc : s.env.cmds = w :: rest) (hd : decodeCommand w = .ok i)
    (hwf : i.wellFormed s.cfg = true) :
    step s = .next (i.micro (s.onTurn.takeCommand.accept w (i.firstMicro s.cfg))) := by
  obtain ⟨hstep, -⟩ := stepRunsTheDecodedCommand
  rw [hstep s w rest i hm hb hc hd]
  exact exec_accepted (s := s.onTurn.takeCommand) (encode_of_decodeCommand hd) hb hwf

/-- R137, R163: progress in the main context's turn. -/
theorem State.Inv.step_mainTurn {s : State} (hs : s.Inv) (hadm : s.HostAdmitted) (hm : s.mainTurn = true) :
    ∃ t, step s = .next t := by
  cases hb : s.mseq.busy with
  | true =>
    obtain ⟨i, -, -, h⟩ := hs.step_going hm hb
    exact ⟨_, h⟩
  | false =>
    cases hc : s.env.cmds with
    | nil => exact ⟨s.onTurn, by simp [step, State.select_of_mainTurn hm, State.selectMain, State.onTurn, hb, hc]⟩
    | cons w rest =>
      obtain ⟨i, hd, hwf⟩ := hadm w (hc ▸ List.mem_cons_self)
      exact ⟨_, step_accepts hm hb hc hd hwf⟩

/-- R64: whose turn it is, where no handler runs. -/
theorem State.turn_cases {s : State} (hi : s.inIsr = false) :
    s.blockTurn = true ∨ (∃ w rest, s.env.turns = .event w :: rest) ∨ ∃ rest, s.env.turns = .rst :: rest := by
  rw [State.blockTurn, hi]
  cases s.env.turns with
  | nil => exact .inl rfl
  | cons turn rest =>
    cases turn with
    | block => exact .inl rfl
    | event w => exact .inr (.inl ⟨w, rest, rfl⟩)
    | rst => exact .inr (.inr ⟨rest, rfl⟩)

theorem step_of_rst_turn {s : State} {rest : List Turn} (h : s.env.turns = .rst :: rest) :
    step s = .next s.takeTurn.assertRst := by
  rw [step, State.select, h]

/-- Progress, whoever's turn it is. -/
theorem State.Inv.step_next {s : State} (hs : s.Inv) (hadm : s.HostAdmitted) : ∃ t, step s = .next t := by
  rcases State.turn_cases hs.notInIsr with hb | ⟨w, rest, hturn⟩ | ⟨rest, hturn⟩
  · cases hp : s.noPending with
    | true => exact hs.step_mainTurn hadm (by rw [State.mainTurn, hb, hp]; rfl)
    | false =>
      obtain ⟨⟨t, h, -⟩, -⟩ := stepDispatchesTheHighestPendingEvent s hb hp
      exact ⟨t, h⟩
  · exact ⟨_, step_of_event_turn hturn⟩
  · exact ⟨_, step_of_rst_turn hturn⟩

/-- Settles O12: progress by the cases of the turn; a step keeps the configuration and takes words off the port only. -/
theorem admittedHostIsNeverRefused : Obligations.AdmittedHostIsNeverRefused := by
  intro s hs hadm
  obtain ⟨t, h⟩ := hs.step_next hadm
  obtain ⟨-, hcfg⟩ := everyStepKeepsTheInvariant s t hs h
  refine ⟨t, h, fun w hw => ?_⟩
  change w ∈ t.cmds at hw
  rw [hcfg]
  rcases step_cmds h with hcmds | hcmds <;> rw [hcmds] at hw
  · exact hadm w hw
  · exact hadm w (List.mem_of_mem_tail hw)

end Sys2Proof.Machine
end

section
/-! The micro-steps that a command in progress has left (spec/60_exceptions.md R147, R164): each of its own steps takes at least
one off, and no other turn touches the sequencer. -/

namespace Sys2Proof.Machine

/-! ### The other turns -/

/-- R147: outside the main context's turn a step, unless a reset, leaves the sequencer as it is and does not answer. -/
theorem step_of_not_mainTurn {s t : State} (hm : s.mainTurn = false) (hr : s.env.turns.head? ≠ some .rst)
    (h : step s = .next t) : t.mseq = s.mseq ∧ t.cfg = s.cfg ∧ t.out.rspValid = false := by
  rcases step_cases h with ⟨w, rest, -, rfl⟩ | ⟨rest, hturn, rfl⟩ | ⟨-, rfl⟩ | ⟨-, -, i, u, htake, hex⟩ |
    ⟨hm', -⟩ | ⟨hm', -⟩ | ⟨hm', -⟩ | ⟨hm', -⟩
  · unfold State.arrive
    split <;> exact ⟨rfl, rfl, rfl⟩
  · exact absurd (congrArg List.head? hturn) hr
  · exact ⟨rfl, rfl, rfl⟩
  · rw [exec_event_eq_frame (isEvent_of_takeEvent htake) hex]
    rcases State.takeEvent_cases htake with ⟨-, -, rfl⟩ | ⟨-, -, -, rfl⟩ | ⟨-, -, -, -, rfl⟩ <;> exact ⟨rfl, rfl, rfl⟩
  all_goals exact absurd hm' (ne_true_of_eq_false hm)

theorem State.microsLeft_congr {s t : State} (hmseq : t.mseq = s.mseq) (hcfg : t.cfg = s.cfg) :
    t.microsLeft = s.microsLeft := by
  rw [State.microsLeft, State.microsLeft, hmseq, hcfg]

/-! ### The micro-steps -/

section
variable {s : State}

/-- Stated of any word `v`, as `State.synWrite_goto_response` is. -/
theorem State.synWrite_goto_microsLeft_lt {m : Micro} {n : Nat}
    (h : ∀ v : Word24, ((s.synWrite v).goto m).microsLeft < n) (v : Word24) :
    ((s.synWrite v).goto m).microsLeft < n := h v

theorem tuneMicro_microsLeft_lt {hz : Word32} (h : s.mseq.standsIn s.cfg (.tune hz)) :
    tuneMicro hz s = s.finish hz ∨ (tuneMicro hz s).microsLeft < s.microsLeft := by
  rcases h with ⟨hm, -⟩ | hfits
  · replace hm : s.mseq.step = .t1 := hm
    rw [tuneMicro_t1 hm]
    right
    simp only [State.microsLeft, hm, State.goto_mseq, State.goto_cfg, State.setSession_cfg, State.strobe_cfg]
    omega
  rcases Mseq.fits_tune hfits with ⟨hm, hn⟩ | ⟨hm, hn⟩ | hm | hm | hm | hm | ⟨hm, hn⟩ | ⟨hm, hn⟩ | hm
  · rw [tuneMicro_t2Poll hm]
    rcases s.waitPoll_cases .idle s.cfg.pollMaxIdle .t2Tick (fun t => t.goto .t3) with ⟨-, e⟩ | ⟨-, -, e⟩ <;>
      rw [e] <;> exact .inr (by simp [State.microsLeft, hm])
  · rw [tuneMicro_t2Tick hm]
    right
    simp only [State.microsLeft, hm, State.tickTo_mseq, State.tickTo_cfg]
    omega
  · rw [tuneMicro_t3 hm]
    exact .inr (by simp [State.microsLeft, hm])
  · rw [tuneMicro_t4 hm]
    exact .inr (State.synWrite_goto_microsLeft_lt (fun v => by simp [State.microsLeft, hm]) _)
  · rw [tuneMicro_t5 hm]
    exact .inr (by simp [State.microsLeft, hm])
  · rw [tuneMicro_t6 hm]
    right
    simp only [State.microsLeft, hm, State.goto_mseq, State.goto_cfg, State.clearFlags_cfg]
    omega
  · rw [tuneMicro_t7Poll hm]
    rcases s.waitPoll_cases .rx s.cfg.pollMaxRx .t7Tick (fun t => t.confirmRx.goto .t8) with ⟨-, e⟩ | ⟨-, -, e⟩ <;>
      rw [e] <;> exact .inr (by simp [State.microsLeft, hm])
  · rw [tuneMicro_t7Tick hm]
    right
    simp only [State.microsLeft, hm, State.tickTo_mseq, State.tickTo_cfg]
    omega
  · exact .inl (tuneMicro_t8 hm)

theorem calMicro_microsLeft_lt {ch : Byte} {hz : Word32} (h : s.mseq.standsIn s.cfg (.cal ch hz)) :
    calMicro ch hz s = s.finish hz ∨ (calMicro ch hz s).microsLeft < s.microsLeft := by
  rcases h with ⟨hm, -⟩ | hfits
  · replace hm : s.mseq.step = .c1 := hm
    rw [calMicro_c1 hm]
    exact .inr (State.synWrite_goto_microsLeft_lt (fun v => by simp [State.microsLeft, hm]) _)
  rcases Mseq.fits_cal hfits with hm | hm | hm | hm | hm | hm | hm | hm
  · rw [calMicro_c2 hm]; exact .inr (by simp [State.microsLeft, hm])
  · rw [calMicro_c3 hm]; exact .inr (by simp [State.microsLeft, hm])
  · rw [calMicro_c4First hm]; exact .inr (by simp [State.microsLeft, hm])
  · rw [calMicro_c4Second hm]; exact .inr (by simp [State.microsLeft, hm])
  · rw [calMicro_c5 hm]; exact .inr (by simp [State.microsLeft, hm])
  · rw [calMicro_c6 hm]; exact .inr (by simp [State.microsLeft, hm])
  · rw [calMicro_c7 hm]; exact .inr (by simp [State.microsLeft, hm])
  · exact .inl (calMicro_c8 hm)

theorem tunechMicro_microsLeft_lt {ch : Byte} (h : s.mseq.standsIn s.cfg (.tunech ch)) :
    tunechMicro ch s = s.finish 0 ∨ (tunechMicro ch s).microsLeft < s.microsLeft := by
  rcases h with ⟨hm, -⟩ | hfits
  · replace hm : s.mseq.step = .u1 := hm
    rw [tunechMicro_u1 hm]
    exact .inr (by simp [State.microsLeft, hm])
  rcases Mseq.fits_tunech hfits with hm | hm
  · rw [tunechMicro_u2 hm]
    exact .inr (by simp [State.microsLeft, hm])
  · exact .inl (tunechMicro_u3 hm)

theorem fitsSweep_of_standsIn (h : s.mseq.standsIn s.cfg .sweep) : s.mseq.fitsSweep s.cfg = true := by
  rcases standsIn_sweep h with hm | ⟨hch, hm | hm | hm | ⟨hm, hn⟩ | hm | hm⟩ <;> simp [Mseq.fitsSweep, *]

theorem sweepMicro_microsLeft_lt (hdwell : 0 < s.cfg.dwellIter) (h : s.mseq.standsIn s.cfg .sweep) :
    sweepMicro s = s.finish 0 ∨ (sweepMicro s).microsLeft < s.microsLeft := by
  by_cases hend : s.mseq.step = .sEnd
  · exact .inl (sweepMicro_sEnd hend)
  · obtain ⟨-, -, hleft⟩ := sweepMicro_counters hdwell (fitsSweep_of_standsIn h) hend
    exact .inr (Nat.lt_of_succ_le hleft.le)

/-- R164: a micro-step that does not end the command leaves strictly fewer to take. -/
theorem micro_microsLeft_lt {i : Instr} {w : BitVec 48} (hi : encode i = .command w) (hdwell : 0 < s.cfg.dwellIter)
    (h : s.mseq.standsIn s.cfg i) (hb : (i.micro s).mseq.busy = true) : (i.micro s).microsLeft < s.microsLeft := by
  have hlast : ∀ {t : State} {v : Word32}, t.mseq.busy = true → t ≠ s.finish v := by
    rintro _ v hb rfl
    cases hb
  cases i with
  | tune hz => exact (tuneMicro_microsLeft_lt h).resolve_left (hlast hb)
  | cal ch hz => exact (calMicro_microsLeft_lt h).resolve_left (hlast hb)
  | tunech ch => exact (tunechMicro_microsLeft_lt h).resolve_left (hlast hb)
  | sweep => exact (sweepMicro_microsLeft_lt hdwell h).resolve_left (hlast hb)
  | evSfd => cases hi
  | evByte b => cases hi
  | evOvf => cases hi
  | _ => cases hb

end

/-- R97: the channels of `SWEEP` at `d` micro-steps each, the first one counted apart. -/
theorem State.microsLeft_s0Syn {s : State} (hm : s.mseq.step = .s0Syn) (hchan : s.mseq.chan = 0)
    (hch : 0 < s.cfg.numChannels) : s.microsLeft = s.cfg.numChannels * (5 + s.cfg.dwellIter) + 1 := by
  obtain ⟨n, hn⟩ : ∃ n, s.cfg.numChannels = n + 1 := Nat.exists_eq_add_one.2 hch
  simp only [State.microsLeft, hm, hchan, hn, Nat.sub_zero, Nat.add_sub_cancel, Nat.succ_mul]
  omega

/-- R164: at acceptance the whole bound is left. -/
theorem microsLeft_accept {s : State} (i : Instr) (w : BitVec 48) (hch : 0 < s.cfg.numChannels) :
    (s.accept w (i.firstMicro s.cfg)).microsLeft = microBound s.cfg i := by
  cases i with
  | sweep => exact State.microsLeft_s0Syn (s := s.accept w (sweepFirst s.cfg)) (if_pos hch) rfl hch
  | _ => rfl

theorem State.Inv.numChannels_pos {s : State} (hs : s.Inv) : 0 < s.cfg.numChannels := by
  have hwf := hs.cfg
  simp only [Config.wf, Bool.and_eq_true, decide_eq_true_eq] at hwf
  omega

/-- R164: an accepted command that goes on has its first micro-step taken off the bound. -/
theorem State.Inv.microsLeft_of_accept {s t : State} {w : BitVec 48} {rest : List (BitVec 48)} {i : Instr} (hs : s.Inv)
    (hm : s.mainTurn = true) (hb : s.mseq.busy = false) (hc : s.env.cmds = w :: rest) (hd : decodeCommand w = .ok i)
    (h : step s = .next t) (hbt : t.mseq.busy = true) : t.microsLeft < microBound s.cfg i := by
  have hi := encode_of_decodeCommand hd
  obtain ⟨hstep, -⟩ := stepRunsTheDecodedCommand
  rw [hstep s w rest i hm hb hc hd] at h
  rcases exec_command_next hi h with ⟨-, rfl⟩ | ⟨hb', -⟩ | ⟨hb', -⟩
  · have hlt := micro_microsLeft_lt (s := s.onTurn.takeCommand.accept w (i.firstMicro s.cfg)) hi hs.dwellIter_pos
      (.inl ⟨rfl, rfl⟩) hbt
    exact hlt.trans_eq (microsLeft_accept (s := s.onTurn.takeCommand) i w hs.numChannels_pos)
  all_goals exact absurd (hb.symm.trans hb') Bool.false_ne_true

/-- Settles O13: `micro_microsLeft_lt` in the main context's turn, from the command in progress and from the word accepted, and
`step_of_not_mainTurn` in every other. -/
theorem everyCommandTerminatesWithinItsBound : Obligations.EveryCommandTerminatesWithinItsBound := by
  refine ⟨fun s hs hm hb => ?_, fun s t hm hr h => ?_, fun s t w rest i hs hm hb hc hd h hbt =>
    hs.microsLeft_of_accept hm hb hc hd h hbt⟩
  · obtain ⟨i, hi, hfits, h⟩ := hs.step_going hm hb
    exact ⟨_, h, micro_microsLeft_lt (s := s.onTurn) hi hs.dwellIter_pos (.inr hfits)⟩
  · obtain ⟨hmseq, hcfg, -⟩ := step_of_not_mainTurn hm hr h
    exact ⟨hmseq, State.microsLeft_congr hmseq hcfg⟩

end Sys2Proof.Machine
end

section
/-! `IfClr()` at `TUNE`'s T3 (spec/40_synth.md R88 (e), 60_exceptions.md R152): where a micro-step runs, no latch is set. -/

namespace Sys2Proof.Machine

theorem State.noPending_iff (s : State) :
    s.noPending = true ↔ s.pendSfd = false ∧ s.pendByte = false ∧ s.pendOvf = false := by
  simp only [State.noPending, Bool.and_eq_true, Bool.not_eq_true']
  tauto

/-- R87 T3. -/
theorem exec_tune_t3 {s : State} {hz : Word32} (h : s.standsAt (cmdWord 0x01 0 hz) .t3 = true) :
    exec (.tune hz) s = .next (s.ifClr.goto .t4) := by
  obtain ⟨hm, hex⟩ := exec_tune_going h
  rw [hex, tuneMicro_t3 hm]

/-- R152: with no latch set, `IfClr()` changes nothing. -/
theorem State.ifClr_of_noPending {s : State} (h : s.noPending = true) : s.ifClr = s := by
  obtain ⟨hsfd, hbyte, hovf⟩ := s.noPending_iff.1 h
  cases s
  cases hsfd
  cases hbyte
  cases hovf
  rfl

/-- R147: a step that moves the sequencer or answers is the main context's. -/
theorem mainTurn_of_step {s t : State} (hr : s.env.turns.head? ≠ some .rst) (h : step s = .next t)
    (hmoves : t.mseq ≠ s.mseq ∨ t.out.rspValid = true) : s.mainTurn = true := by
  by_contra hm
  obtain ⟨hmseq, -, hvalid⟩ := step_of_not_mainTurn (Bool.eq_false_iff.2 hm) hr h
  rcases hmoves with hne | hanswer
  · exact hne hmseq
  · exact Bool.false_ne_true (hvalid.symm.trans hanswer)

/-- R152: the main context's turn at T3. -/
theorem step_tune_t3 {s : State} {hz : Word32} (hm : s.mainTurn = true)
    (h : s.standsAt (cmdWord 0x01 0 hz) .t3 = true) : step s = .next (s.onTurn.goto .t4) := by
  obtain ⟨hb, hw, -⟩ := (s.standsAt_iff _ _).1 h
  obtain ⟨-, hstep⟩ := stepRunsTheDecodedCommand
  have hp : s.onTurn.noPending = true := (Bool.and_eq_true_iff.1 hm).2
  rw [hstep s (.tune hz) hm hb (hw ▸ decodeCommand_tune hz), exec_tune_t3 (s := s.onTurn) h,
    State.ifClr_of_noPending hp]

/-- A reset leaves no command in progress, so a step that leaves one in progress is no reset. -/
theorem head?_ne_rst_of_busy {s t : State} (h : step s = .next t) (hb : t.mseq.busy = true) :
    s.env.turns.head? ≠ some .rst := by
  intro hr
  obtain rfl := Host.Outcome.next.inj ((step_of_rst_turn (List.cons_head?_tail hr).symm).symm.trans h)
  cases hb

/-- Settles O26: a step that moves the sequencer is the main context's, whose turn needs every latch at 0. -/
theorem ifClrFindsEveryLatchClear : Obligations.IfClrFindsEveryLatchClear := by
  refine ⟨fun s hz h => exec_tune_t3 h, fun s t hr h hmoves => ?_, fun s t hz h3 h h4 => ?_, fun s hz hm h => ?_⟩
  · have hm := mainTurn_of_step hr h hmoves
    exact s.noPending_iff.1 (Bool.and_eq_true_iff.1 hm).2
  · obtain ⟨-, -, hm3⟩ := (s.standsAt_iff _ _).1 h3
    obtain ⟨hb4, -, hm4⟩ := (t.standsAt_iff _ _).1 h4
    have hne : t.mseq ≠ s.mseq := fun e => by
      rw [e, hm3] at hm4
      cases hm4
    have hm := mainTurn_of_step (head?_ne_rst_of_busy h hb4) h (.inl hne)
    obtain ⟨hsfd, hbyte, hovf⟩ := s.noPending_iff.1 (Bool.and_eq_true_iff.1 hm).2
    exact ⟨hsfd, hbyte, hovf, Host.Outcome.next.inj (h.symm.trans (step_tune_t3 hm h3))⟩
  · obtain ⟨hb, hw, -⟩ := (s.standsAt_iff _ _).1 h
    exact ⟨_, step_tune_t3 hm h, (State.standsAt_iff _ _ _).2 ⟨hb, hw, rfl⟩⟩

end Sys2Proof.Machine
end

section
/-! The block at rest (spec/70_reset_and_hazards.md R166, R168): what a reset leaves, and the turn with nothing to do. -/

namespace Sys2Proof.Machine

/-- R168: a ready block with no word on the command port selects nothing. -/
theorem State.selectMain_of_noWord {s : State} (hb : s.mseq.busy = false) (hc : s.env.cmds = []) :
    s.selectMain = .settled s := by
  rw [State.selectMain, if_neg (ne_true_of_eq_false hb), hc]

/-- Settles O8: `onTurn` leaves the sequencer and the command port as they are. -/
theorem blockWaitsForACommand : Obligations.BlockWaitsForACommand := by
  intro s hm hb hc
  rw [step, State.select_of_mainTurn hm, State.selectMain_of_noWord (s := s.onTurn) hb hc]

/-- Settles O9: the step is `assertRst`, which is `resetWith` of the configuration and of what is left of the outside, so every
control item is a constant of `resetWith`; only the turns need the hypothesis. -/
theorem resetRestoresTheControlState : Obligations.ResetRestoresTheControlState := by
  intro s rest hturn
  have hturns : s.takeTurn.assertRst.env.turns = rest := congrArg List.tail hturn
  exact ⟨s.takeTurn.assertRst, step_of_rst_turn hturn, rfl, rfl, rfl, rfl, rfl, rfl, rfl, rfl, rfl, rfl, rfl, rfl, rfl, rfl,
    hturns, rfl⟩

end Sys2Proof.Machine
end
